-- ==== Sys2Proof/Word.lean ====
section
/-! DEFINITION. The byte and the byte sequences of the core (00_scope.md R8, R9; 20_memory.md R56). -/

namespace Sys2Proof

/-- A byte: 8 bits, unsigned, bit 0 least significant (R8). -/
abbrev Byte := BitVec 8

/-- A 16-byte sequence, indexed by offset: a block, the state `S`, a cipher key or a round key (R9, R10). -/
abbrev Block := Vector Byte 16

/-- A 4-byte sequence: a word of the expanded key or a column of the state (R10, R33). -/
abbrev Word := Vector Byte 4

/-- The 176 bytes of the expanded key, indexed by offset (10_state.md R25). -/
abbrev ExpandedKey := Vector Byte 176

end Sys2Proof
end

