-- ==== Sys2Proof/Syntax.lean ====
section
/-! DEFINITION. The instructions: the four commands of format C and the ten micro-operations of format U
(30_encoding.md R70, R72, R75), one constructor per row of spec/opcode_table.json, in its order. -/

namespace Sys2Proof

/-- A command or a micro-operation. The argument of `kx` and `ark` is the 6-bit field `ARG` (R74). -/
inductive Instr where
  /-- `NOP` (44_block_cipher.md R154). -/
  | nop
  /-- `EXPAND_KEY` (R155). -/
  | expandKey
  /-- `ENCRYPT_BLOCK` (R156). -/
  | encryptBlock
  /-- `DECRYPT_BLOCK` (R157). -/
  | decryptBlock
  /-- `KX i`: one word of key expansion (42_key_schedule.md R123). -/
  | kx (arg : BitVec 6)
  /-- `ARK r`: AddRoundKey with round key `r` (43_round_transforms.md R136). -/
  | ark (arg : BitVec 6)
  /-- `SB`: SubBytes (R130). -/
  | sb
  /-- `SR`: ShiftRows (R132). -/
  | sr
  /-- `MC`: MixColumns (R134). -/
  | mc
  /-- `ISB`: InvSubBytes (R131). -/
  | isb
  /-- `ISR`: InvShiftRows (R133). -/
  | isr
  /-- `IMC`: InvMixColumns (R135). -/
  | imc
  /-- `FIN`: end of a block operation (44_block_cipher.md R163). -/
  | fin
  /-- `FINX`: end of `EXPAND_KEY` (R164). -/
  | finx
  deriving DecidableEq, Repr

end Sys2Proof
end

