-- ==== Sys2Proof/WellFormed.lean ====
section
/-! DEFINITION. Which terms of Instr are instructions: the legal arguments of 30_encoding.md R76. -/

namespace Sys2Proof

/-- `KX i` only for `4 <= i <= 43`, `ARK r` only for `0 <= r <= 10` (R76); R77 reserves the rest. -/
def Instr.wf : Instr → Bool
  | .kx arg => 4 ≤ arg.toNat && arg.toNat ≤ 43
  | .ark arg => arg.toNat ≤ 10
  | .nop | .expandKey | .encryptBlock | .decryptBlock | .sb | .sr | .mc | .isb | .isr | .imc | .fin | .finx => true

/-- The instruction is a command of format C; the other ten are micro-operations of format U (R70). -/
def Instr.isCommand : Instr → Bool
  | .nop | .expandKey | .encryptBlock | .decryptBlock => true
  | .kx _ | .ark _ | .sb | .sr | .mc | .isb | .isr | .imc | .fin | .finx => false

end Sys2Proof
end

