-- ==== Sys2Proof/Decode.lean ====
section
/-! DEFINITION. The decoder, total on every command byte and every micro-operation word, rejecting by name, and after it the
encoder (30_encoding.md R70 to R77). -/

namespace Sys2Proof

/-- A word the core decodes: the two formats and no other (R70). -/
inductive Encoded where
  /-- Format C, the command byte. -/
  | command (v : BitVec 8)
  /-- Format U, the micro-operation word. -/
  | micro (w : BitVec 10)
  deriving DecidableEq, Repr

/-- Why a word is not an instruction. -/
inductive DecodeError where
  /-- A command byte with `RSV != 0`, 0x04 to 0xFF (R73). -/
  | reservedCommand
  /-- `UOPC` 0x0 or 0xB to 0xF (R77). -/
  | reservedUopc
  /-- `KX` with `ARG` 0 to 3 or 44 to 63 (R77). -/
  | reservedWordIndex
  /-- `ARK` with `ARG` 11 to 63 (R77). -/
  | reservedRoundNumber
  /-- A micro-operation without an argument whose `ARG` is not 0 (R77). -/
  | nonzeroArgument
  deriving DecidableEq, Repr

/-- The field `RSV`, bits 7:2 of the command byte (R71). -/
def commandRsv (v : BitVec 8) : BitVec 6 := v.extractLsb' 2 6

/-- The field `OP`, bits 1:0 of the command byte (R71). -/
def commandOp (v : BitVec 8) : BitVec 2 := v.extractLsb' 0 2

/-- The field `UOPC`, bits 9:6 of the micro-operation word (R74). -/
def microUopc (w : BitVec 10) : BitVec 4 := w.extractLsb' 6 4

/-- The field `ARG`, bits 5:0 of the micro-operation word (R74). -/
def microArg (w : BitVec 10) : BitVec 6 := w.extractLsb' 0 6

/-- The command map (R72): `RSV` is compared whole, so the low two bits do not matter when it is not zero (R73). -/
def decodeCommand (v : BitVec 8) : Except DecodeError Instr :=
  if commandRsv v ≠ 0 then .error .reservedCommand
  else match (commandOp v).toNat with
    | 0 => .ok .nop
    | 1 => .ok .expandKey
    | 2 => .ok .encryptBlock
    | _ => .ok .decryptBlock

/-- A micro-operation that takes no argument: `ARG` must be 0 (R75, R77). -/
def withoutArgument (arg : BitVec 6) (i : Instr) : Except DecodeError Instr :=
  if arg = 0 then .ok i else .error .nonzeroArgument

/-- The micro-operation map (R75) with the legal arguments of R76. -/
def decodeMicro (w : BitVec 10) : Except DecodeError Instr :=
  let arg := microArg w
  match (microUopc w).toNat with
  | 0x1 => if 4 ≤ arg.toNat ∧ arg.toNat ≤ 43 then .ok (.kx arg) else .error .reservedWordIndex
  | 0x2 => if arg.toNat ≤ 10 then .ok (.ark arg) else .error .reservedRoundNumber
  | 0x3 => withoutArgument arg .sb
  | 0x4 => withoutArgument arg .sr
  | 0x5 => withoutArgument arg .mc
  | 0x6 => withoutArgument arg .isb
  | 0x7 => withoutArgument arg .isr
  | 0x8 => withoutArgument arg .imc
  | 0x9 => withoutArgument arg .fin
  | 0xA => withoutArgument arg .finx
  | _ => .error .reservedUopc

/-- The decoder of both formats. -/
def decode : Encoded → Except DecodeError Instr
  | .command v => decodeCommand v
  | .micro w => decodeMicro w

/-- A format U word from its two fields, `UOPC` above `ARG` (R74). -/
def microWordOf (uopc : BitVec 4) (arg : BitVec 6) : Encoded := .micro (uopc ++ arg)

/-- A format C byte from its operation code, `RSV` zero (R71). -/
def commandByteOf (op : BitVec 2) : Encoded := .command ((0 : BitVec 6) ++ op)

/-- The encoder, from the maps of R72 and R75. -/
def encode : Instr → Encoded
  | .nop => commandByteOf 0b00
  | .expandKey => commandByteOf 0b01
  | .encryptBlock => commandByteOf 0b10
  | .decryptBlock => commandByteOf 0b11
  | .kx arg => microWordOf 0x1 arg
  | .ark arg => microWordOf 0x2 arg
  | .sb => microWordOf 0x3 0
  | .sr => microWordOf 0x4 0
  | .mc => microWordOf 0x5 0
  | .isb => microWordOf 0x6 0
  | .isr => microWordOf 0x7 0
  | .imc => microWordOf 0x8 0
  | .fin => microWordOf 0x9 0
  | .finx => microWordOf 0xA 0

/-- The bits of an encoded word as a number, bit 0 its least significant bit. -/
def Encoded.bits : Encoded → Nat
  | .command v => v.toNat
  | .micro w => w.toNat

/-- The word a row of the opcode table stands for, from its width in whole bytes and its bits: one byte is format C, more is
format U, whose ten bits leave the bits above them zero (log 13). -/
def encodedOfTable (nbits w : Nat) : Option Encoded :=
  if nbits ≤ 8 then
    if w < 2 ^ 8 then some (.command (BitVec.ofNat 8 w)) else none
  else
    if w < 2 ^ 10 then some (.micro (BitVec.ofNat 10 w)) else none

/-- What the decoder reads from a row's bits, `none` where it rejects them. -/
def decodeTableWord (nbits w : Nat) : Option Instr :=
  match encodedOfTable nbits w with
  | none => none
  | some e =>
    match decode e with
    | .ok i => some i
    | .error _ => none

end Sys2Proof
end

