-- ==== Sys2Proof/Config.lean ====
section
/-! DEFINITION. The parameters of the core (00_scope.md R5) and the free values: what the spec leaves open is a constant with no
body, so that no proof can see a value of it. -/

namespace Sys2Proof.Config

/-- Block and state size in bytes (R5). -/
def blockBytes : Nat := 16
/-- Cipher key size in bytes (R5). -/
def keyBytes : Nat := 16
/-- Number of rounds, nine full and one final (R5). -/
def nr : Nat := 10
/-- Number of round keys (R5). -/
def nrk : Nat := 11
/-- Expanded key size in bytes (R5). -/
def xkBytes : Nat := 176
/-- Words in the expanded key (R5). -/
def nwords : Nat := 44
/-- Entries in each substitution table (R5). -/
def sboxEntries : Nat := 256
/-- Entries in the round-constant table (R5, 90_conflicts.md C1). -/
def rconEntries : Nat := 11
/-- The reduction constant of the byte multiplier (R5, 41_galois.md R100). -/
def reduction : Byte := 0x1B
/-- The length both declared lengths must have for a block operation (10_state.md R23). -/
def declaredLength : Byte := 0x10

/-- `RCON0`, the content of `RCON[0]`: OPEN, read by no rule (R5, 92_eei_decisions.md D19). Free value, log 7. -/
opaque rcon0 : Byte

/-- `BASE`, where the platform places offset 0x00: OPEN, no rule depends on it (R5, D2). Log 15. -/
opaque base : Nat

/-- `N_INSTANCES`, the number of cores on a chip: OPEN (R5, D21). Log 14. -/
opaque nInstances : Nat

/-- `STEP_TIME`: OPEN and unused (R5, D18). Log 15. -/
opaque stepTime : Nat

/-- Whether the core moves before the host at the `n`-th open choice between the two (20_memory.md R60 item 3: core steps are
placed anywhere in the order). Free value, log 1. -/
opaque coreMovesNext : Nat → Bool

end Sys2Proof.Config
end

