-- ==== Sys2Proof/Machine/State.lean ====
section
/-! DEFINITION. The state of one core (10_state.md R20), the host beside it, the reset state (R35), and the reasons a step can
stop. -/

namespace Sys2Proof.Machine

/-- `OPR`, the operation in progress (10_state.md R27): the four values of its two bits, by name (log 10). -/
inductive Operation where
  /-- 0: none, the core is idle. -/
  | idle
  /-- 1. -/
  | expandKey
  /-- 2. -/
  | encryptBlock
  /-- 3. -/
  | decryptBlock
  deriving DecidableEq, Repr

/-- The numbers of R27, which are the command codes of 30_encoding.md R72. -/
def Operation.code : Operation → BitVec 2
  | .idle => 0
  | .expandKey => 1
  | .encryptBlock => 2
  | .decryptBlock => 3

/-- One host access (30_encoding.md R79; `wait` is the repeated STATUS read of R80, log 11). -/
inductive HostAccess where
  /-- `WR a, v`. -/
  | write (a v : Byte)
  /-- `RD a`. -/
  | read (a : Byte)
  /-- `RESET`. -/
  | reset
  /-- `WAIT`. -/
  | wait
  deriving DecidableEq, Repr

/-- The two agents (00_scope.md R6, 20_memory.md R60). -/
inductive Agent where
  | host
  | core
  deriving DecidableEq, Repr

/-- The state. The first fourteen fields are R20's inventory of the core; the last four are the model's own: the host's accesses
still to be made and its received reads, and the order of transitions (log 1, log 3). -/
structure State where
  /-- `KEY`, the cipher key operand (R21). -/
  key : Block
  /-- `BLOCK`, the input block operand (R22). -/
  block : Block
  /-- `KEYLEN`, declared length of the key argument (R23). -/
  keylen : Byte
  /-- `BLKLEN`, declared length of the block argument (R23). -/
  blklen : Byte
  /-- `S`, the working State (R24). -/
  st : Block
  /-- `XK`, the ExpandedKey (R25). -/
  xk : ExpandedKey
  /-- `OUT`, the result block (R26). -/
  out : Block
  /-- `OPR`, the operation in progress (R27). -/
  opr : Operation
  /-- `UPC`, the sequencer counter (R28). -/
  upc : BitVec 7
  /-- `DONE` (R29). -/
  done : Bool
  /-- `ERR` (R29). -/
  err : Bool
  /-- `XKV` (R29). -/
  xkv : Bool
  /-- `OUTV` (R29). -/
  outv : Bool
  /-- `ERRCODE` (R30). -/
  errcode : Byte
  /-- The host's accesses still to be made, oldest first. -/
  pending : List HostAccess
  /-- What the host's reads have returned, address and value, oldest first. -/
  reads : List (Byte × Byte)
  /-- Who moves next where both agents can; past its end the choice is the free value `Config.coreMovesNext`. -/
  sched : List Agent
  /-- How many choices the free value has made. -/
  turn : Nat
  deriving DecidableEq, Repr

/-- Nothing stops this machine with a fault: "Nothing in this hardware is treated as fault or stuck"
(93_implementation_defined.md section 1), so no constructor, and nobody raises one (log 19). -/
inductive Fault where
  deriving DecidableEq, Repr

/-- The reasons there is no meaning. -/
inductive Refusal where
  /-- Raised by an arm of `exec` whose instruction has no meaning yet (no arm is left). Safe. -/
  | notModelled (mnemonic : String)
  /-- Raised by `execKx` and `execArk` on an argument that 30_encoding.md R77 reserves ("no behaviour is defined for them"), and by
  a core step with no micro-operation; no state leads a step there. Safe (log 6). -/
  | reservedMicroOperation
  deriving DecidableEq, Repr

/-- What a meaning answers. -/
abbrev Result := Host.Outcome State Fault Refusal

/-- The state after reset: every piece of the core's state holds zero (R35). The host has no access pending and has read
nothing (log 3). -/
def State.reset : State where
  key := Vector.replicate 16 0
  block := Vector.replicate 16 0
  keylen := 0
  blklen := 0
  st := Vector.replicate 16 0
  xk := Vector.replicate 176 0
  out := Vector.replicate 16 0
  opr := .idle
  upc := 0
  done := false
  err := false
  xkv := false
  outv := false
  errcode := 0
  pending := []
  reads := []
  sched := []
  turn := 0

end Sys2Proof.Machine
end

