-- ==== Sys2Proof/Machine/Flags.lean ====
section
/-! DEFINITION. Every flag computation: BUSY and STATUS as the host reads them, and what acceptance, rejection and the end of an
operation do to the flags (10_state.md R29, R30, R34). -/

namespace Sys2Proof.Machine

/-- `BUSY`: 1 exactly when `OPR != 0`; not a flip-flop (R29). -/
def busy (s : State) : Bool := s.opr != .idle

/-- A flag as one bit. -/
def flagBit (b : Bool) : BitVec 1 := BitVec.ofBool b

/-- `STATUS` as a read returns it: `{0b000, OUTV, XKV, ERR, DONE, BUSY}` (R34). -/
def statusByte (s : State) : Byte :=
  (0 : BitVec 3) ++ flagBit s.outv ++ flagBit s.xkv ++ flagBit s.err ++ flagBit s.done ++ flagBit (busy s)

/-- `ERRCODE` 0x00: no error (R30). -/
def errNone : Byte := 0x00
/-- `ERRCODE` 0x01: InvalidInputLength (R30, 60_exceptions.md R180). -/
def errInvalidInputLength : Byte := 0x01
/-- `ERRCODE` 0x02: AllocationFailure, assigned and never produced (R30, R182). -/
def errAllocationFailure : Byte := 0x02

/-- The flags at the acceptance of any operation: `DONE`, `ERR`, `ERRCODE`, `XKV` cleared (44_block_cipher.md R155). -/
def clearReport (s : State) : State := { s with done := false, err := false, errcode := errNone, xkv := false }

/-- The flags at a rejection, the whole of its report (60_exceptions.md R181). -/
def reportInvalidLength (s : State) : State :=
  { s with err := true, errcode := errInvalidInputLength, done := false }

end Sys2Proof.Machine
end

