-- ==== Sys2Proof/Machine/Operands.lean ====
section
/-! DEFINITION. Every operand form: the byte, word and round-key views of `XK` (10_state.md R25), the columns of a block
(00_scope.md R10), and the writes of a run of bytes (R11). -/

namespace Sys2Proof.Machine

/-- Word `i` of the expanded key, `XK[4i .. 4i+3]`, `i` in 0..43 (R25). -/
def xkWord (i : Fin 44) (xk : ExpandedKey) : Word := Vector.ofFn fun j : Fin 4 => xk[4 * i.val + j.val]

/-- Round key `r`, `XK[16r .. 16r+15]`, `r` in 0..10 (R25). -/
def roundKey (r : Fin 11) (xk : ExpandedKey) : Block := Vector.ofFn fun k : Fin 16 => xk[16 * r.val + k.val]

/-- `XK[4i .. 4i+3] <- w`: the one word `KX` writes, byte by byte (42_key_schedule.md R123). -/
def setXkWord (i : Fin 44) (w : Word) (xk : ExpandedKey) : ExpandedKey :=
  (((xk.set (4 * i.val) w[0]).set (4 * i.val + 1) w[1]).set (4 * i.val + 2) w[2]).set (4 * i.val + 3) w[3]

/-- `XK[0..15] <- KEY[0..15]`: words 0..3 of the expansion (44_block_cipher.md R155, R156). -/
def loadKey (key : Block) (xk : ExpandedKey) : ExpandedKey :=
  Vector.ofFn fun k : Fin 176 => if h : k.val < 16 then key[k.val] else xk[k.val]

/-- Column `c` of a block, the bytes at offsets `4c .. 4c+3` (R10). -/
def column (c : Fin 4) (s : Block) : Word := Vector.ofFn fun r : Fin 4 => s[4 * c.val + r.val]

/-- The block whose column `c` is `f` of column `c` of `s`, the columns being independent (43_round_transforms.md R134). -/
def mapColumns (f : Word → Word) (s : Block) : Block :=
  Vector.ofFn fun k : Fin 16 => (f (column ⟨k.val / 4, by omega⟩ s))[k.val % 4]

/-- Both declared lengths are 16, the only value under which a block operation is accepted (10_state.md R23). -/
def lengthsValid (s : State) : Bool := s.keylen == Config.declaredLength && s.blklen == Config.declaredLength

end Sys2Proof.Machine
end

