-- ==== Sys2Proof/Machine/Ops.lean ====
section
/-! DEFINITION. The shared operations: the host's view of the registers (20_memory.md R53, R54), the reject transition, which is
this hardware's taking of an exception (60_exceptions.md R181, R185), the acceptance of a command, the advance and the end of the
sequencer, and reset. -/

namespace Sys2Proof.Machine

/-- `MemRead(a, 1)`: the byte a host read of address `a` returns, total, in the order of R53's clauses. -/
def memRead (a : Byte) (s : State) : Byte :=
  let n := a.toNat
  if n = 0x00 then 0x00
  else if n = 0x01 then statusByte s
  else if n = 0x02 then s.errcode
  else if n = 0x03 then s.keylen
  else if n = 0x04 then s.blklen
  else if h : 0x10 ≤ n ∧ n ≤ 0x1F then s.key[n - 0x10]
  else if h : 0x20 ≤ n ∧ n ≤ 0x2F then s.block[n - 0x20]
  else if h : 0x30 ≤ n ∧ n ≤ 0x3F then (if s.outv then s.out[n - 0x30] else 0x00)
  else if h : 0x40 ≤ n ∧ n ≤ 0xEF then (if s.xkv then s.xk[n - 0x40] else 0x00)
  else 0x00

/-- `MemWrite(a, 1, v)` at every address but `CMD`: the four operand registers store, every other address ignores the write
(R54, R55). -/
def writeRegister (a v : Byte) (s : State) : State :=
  let n := a.toNat
  if n = 0x03 then { s with keylen := v }
  else if n = 0x04 then { s with blklen := v }
  else if h : 0x10 ≤ n ∧ n ≤ 0x1F then { s with key := s.key.set (n - 0x10) v }
  else if h : 0x20 ≤ n ∧ n ≤ 0x2F then { s with block := s.block.set (n - 0x20) v }
  else s

/-- `raise InvalidInputLength`: the reject transition, precise, with no transfer of control (R181, R185). It ends with the next
acceptance, which clears the report (R186): there is no return instruction. -/
def raiseInvalidInputLength (s : State) : State := reportInvalidLength s

/-- What every acceptance does: `XK[0..15] <- KEY`, `OPR <- op`, `UPC <- 0`, the report cleared (44_block_cipher.md R155). -/
def startOperation (op : Operation) (s : State) : State :=
  { clearReport s with xk := loadKey s.key s.xk, opr := op, upc := 0 }

/-- What the acceptance of a block operation does besides: `S <- BLOCK`, `OUTV <- 0` (R156, R157). -/
def startBlockOperation (op : Operation) (s : State) : State :=
  { startOperation op s with st := s.block, outv := false }

/-- A block operation commanded: dropped while busy, rejected on a wrong length, else accepted, in this order
(R153, R156, R157; 60_exceptions.md R184). -/
def commandBlockOperation (op : Operation) (s : State) : Result :=
  if busy s then .next s
  else if lengthsValid s then .next (startBlockOperation op s)
  else .next (raiseInvalidInputLength s)

/-- `UPC <- UPC + 1`: how every micro-operation but `FIN` and `FINX` advances (10_state.md R28). -/
def advance (s : State) : State := { s with upc := s.upc + 1 }

/-- A transform of `S` as a micro-operation: `S <- f(S)`, then `UPC <- UPC + 1` (43_round_transforms.md). -/
def transformState (f : Block → Block) (s : State) : Result := .next (advance { s with st := f s.st })

/-- `OPR <- 0; UPC <- 0; DONE <- 1`: the end of every operation (44_block_cipher.md R163, R164). -/
def endOperation (s : State) : State := { s with opr := .idle, upc := 0, done := true }

/-- The reset transition: the core's state of 10_state.md R35 from any state, busy or idle (70_reset_and_hazards.md R200 to R202);
the host's own fields are no part of the core (log 12). -/
def resetCore (s : State) : State :=
  { State.reset with pending := s.pending, reads := s.reads, sched := s.sched, turn := s.turn }

end Sys2Proof.Machine
end

