-- ==== Sys2Proof/Machine/Tables.lean ====
section
/-! DEFINITION. The three ROMs as literal data (40_constant_tables.md R91 to R95; 10_state.md R32) and their lookups. -/

namespace Sys2Proof.Machine

/-- Row 0 (high nibble 0x0). -/
def sboxRow0 : Vector Byte 16 :=
  #v[0x63, 0x7C, 0x77, 0x7B, 0xF2, 0x6B, 0x6F, 0xC5, 0x30, 0x01, 0x67, 0x2B, 0xFE, 0xD7, 0xAB, 0x76]
/-- Row 1 (high nibble 0x1). -/
def sboxRow1 : Vector Byte 16 :=
  #v[0xCA, 0x82, 0xC9, 0x7D, 0xFA, 0x59, 0x47, 0xF0, 0xAD, 0xD4, 0xA2, 0xAF, 0x9C, 0xA4, 0x72, 0xC0]
/-- Row 2 (high nibble 0x2). -/
def sboxRow2 : Vector Byte 16 :=
  #v[0xB7, 0xFD, 0x93, 0x26, 0x36, 0x3F, 0xF7, 0xCC, 0x34, 0xA5, 0xE5, 0xF1, 0x71, 0xD8, 0x31, 0x15]
/-- Row 3 (high nibble 0x3). -/
def sboxRow3 : Vector Byte 16 :=
  #v[0x04, 0xC7, 0x23, 0xC3, 0x18, 0x96, 0x05, 0x9A, 0x07, 0x12, 0x80, 0xE2, 0xEB, 0x27, 0xB2, 0x75]
/-- Row 4 (high nibble 0x4). -/
def sboxRow4 : Vector Byte 16 :=
  #v[0x09, 0x83, 0x2C, 0x1A, 0x1B, 0x6E, 0x5A, 0xA0, 0x52, 0x3B, 0xD6, 0xB3, 0x29, 0xE3, 0x2F, 0x84]
/-- Row 5 (high nibble 0x5). -/
def sboxRow5 : Vector Byte 16 :=
  #v[0x53, 0xD1, 0x00, 0xED, 0x20, 0xFC, 0xB1, 0x5B, 0x6A, 0xCB, 0xBE, 0x39, 0x4A, 0x4C, 0x58, 0xCF]
/-- Row 6 (high nibble 0x6). -/
def sboxRow6 : Vector Byte 16 :=
  #v[0xD0, 0xEF, 0xAA, 0xFB, 0x43, 0x4D, 0x33, 0x85, 0x45, 0xF9, 0x02, 0x7F, 0x50, 0x3C, 0x9F, 0xA8]
/-- Row 7 (high nibble 0x7). -/
def sboxRow7 : Vector Byte 16 :=
  #v[0x51, 0xA3, 0x40, 0x8F, 0x92, 0x9D, 0x38, 0xF5, 0xBC, 0xB6, 0xDA, 0x21, 0x10, 0xFF, 0xF3, 0xD2]
/-- Row 8 (high nibble 0x8). -/
def sboxRow8 : Vector Byte 16 :=
  #v[0xCD, 0x0C, 0x13, 0xEC, 0x5F, 0x97, 0x44, 0x17, 0xC4, 0xA7, 0x7E, 0x3D, 0x64, 0x5D, 0x19, 0x73]
/-- Row 9 (high nibble 0x9). -/
def sboxRow9 : Vector Byte 16 :=
  #v[0x60, 0x81, 0x4F, 0xDC, 0x22, 0x2A, 0x90, 0x88, 0x46, 0xEE, 0xB8, 0x14, 0xDE, 0x5E, 0x0B, 0xDB]
/-- Row A (high nibble 0xA). -/
def sboxRowA : Vector Byte 16 :=
  #v[0xE0, 0x32, 0x3A, 0x0A, 0x49, 0x06, 0x24, 0x5C, 0xC2, 0xD3, 0xAC, 0x62, 0x91, 0x95, 0xE4, 0x79]
/-- Row B (high nibble 0xB). -/
def sboxRowB : Vector Byte 16 :=
  #v[0xE7, 0xC8, 0x37, 0x6D, 0x8D, 0xD5, 0x4E, 0xA9, 0x6C, 0x56, 0xF4, 0xEA, 0x65, 0x7A, 0xAE, 0x08]
/-- Row C (high nibble 0xC). -/
def sboxRowC : Vector Byte 16 :=
  #v[0xBA, 0x78, 0x25, 0x2E, 0x1C, 0xA6, 0xB4, 0xC6, 0xE8, 0xDD, 0x74, 0x1F, 0x4B, 0xBD, 0x8B, 0x8A]
/-- Row D (high nibble 0xD). -/
def sboxRowD : Vector Byte 16 :=
  #v[0x70, 0x3E, 0xB5, 0x66, 0x48, 0x03, 0xF6, 0x0E, 0x61, 0x35, 0x57, 0xB9, 0x86, 0xC1, 0x1D, 0x9E]
/-- Row E (high nibble 0xE). -/
def sboxRowE : Vector Byte 16 :=
  #v[0xE1, 0xF8, 0x98, 0x11, 0x69, 0xD9, 0x8E, 0x94, 0x9B, 0x1E, 0x87, 0xE9, 0xCE, 0x55, 0x28, 0xDF]
/-- Row F (high nibble 0xF). -/
def sboxRowF : Vector Byte 16 :=
  #v[0x8C, 0xA1, 0x89, 0x0D, 0xBF, 0xE6, 0x42, 0x68, 0x41, 0x99, 0x2D, 0x0F, 0xB0, 0x54, 0xBB, 0x16]

/-- `SBOX`, 256 entries of 8 bits, by row `b[7:4]` and column `b[3:0]` (R91; the values' status is log 8). -/
def sboxTable : Vector (Vector Byte 16) 16 :=
  #v[sboxRow0, sboxRow1, sboxRow2, sboxRow3,
     sboxRow4, sboxRow5, sboxRow6, sboxRow7,
     sboxRow8, sboxRow9, sboxRowA, sboxRowB,
     sboxRowC, sboxRowD, sboxRowE, sboxRowF]

/-- Row 0 (high nibble 0x0). -/
def invSboxRow0 : Vector Byte 16 :=
  #v[0x52, 0x09, 0x6A, 0xD5, 0x30, 0x36, 0xA5, 0x38, 0xBF, 0x40, 0xA3, 0x9E, 0x81, 0xF3, 0xD7, 0xFB]
/-- Row 1 (high nibble 0x1). -/
def invSboxRow1 : Vector Byte 16 :=
  #v[0x7C, 0xE3, 0x39, 0x82, 0x9B, 0x2F, 0xFF, 0x87, 0x34, 0x8E, 0x43, 0x44, 0xC4, 0xDE, 0xE9, 0xCB]
/-- Row 2 (high nibble 0x2). -/
def invSboxRow2 : Vector Byte 16 :=
  #v[0x54, 0x7B, 0x94, 0x32, 0xA6, 0xC2, 0x23, 0x3D, 0xEE, 0x4C, 0x95, 0x0B, 0x42, 0xFA, 0xC3, 0x4E]
/-- Row 3 (high nibble 0x3). -/
def invSboxRow3 : Vector Byte 16 :=
  #v[0x08, 0x2E, 0xA1, 0x66, 0x28, 0xD9, 0x24, 0xB2, 0x76, 0x5B, 0xA2, 0x49, 0x6D, 0x8B, 0xD1, 0x25]
/-- Row 4 (high nibble 0x4). -/
def invSboxRow4 : Vector Byte 16 :=
  #v[0x72, 0xF8, 0xF6, 0x64, 0x86, 0x68, 0x98, 0x16, 0xD4, 0xA4, 0x5C, 0xCC, 0x5D, 0x65, 0xB6, 0x92]
/-- Row 5 (high nibble 0x5). -/
def invSboxRow5 : Vector Byte 16 :=
  #v[0x6C, 0x70, 0x48, 0x50, 0xFD, 0xED, 0xB9, 0xDA, 0x5E, 0x15, 0x46, 0x57, 0xA7, 0x8D, 0x9D, 0x84]
/-- Row 6 (high nibble 0x6). -/
def invSboxRow6 : Vector Byte 16 :=
  #v[0x90, 0xD8, 0xAB, 0x00, 0x8C, 0xBC, 0xD3, 0x0A, 0xF7, 0xE4, 0x58, 0x05, 0xB8, 0xB3, 0x45, 0x06]
/-- Row 7 (high nibble 0x7). -/
def invSboxRow7 : Vector Byte 16 :=
  #v[0xD0, 0x2C, 0x1E, 0x8F, 0xCA, 0x3F, 0x0F, 0x02, 0xC1, 0xAF, 0xBD, 0x03, 0x01, 0x13, 0x8A, 0x6B]
/-- Row 8 (high nibble 0x8). -/
def invSboxRow8 : Vector Byte 16 :=
  #v[0x3A, 0x91, 0x11, 0x41, 0x4F, 0x67, 0xDC, 0xEA, 0x97, 0xF2, 0xCF, 0xCE, 0xF0, 0xB4, 0xE6, 0x73]
/-- Row 9 (high nibble 0x9). -/
def invSboxRow9 : Vector Byte 16 :=
  #v[0x96, 0xAC, 0x74, 0x22, 0xE7, 0xAD, 0x35, 0x85, 0xE2, 0xF9, 0x37, 0xE8, 0x1C, 0x75, 0xDF, 0x6E]
/-- Row A (high nibble 0xA). -/
def invSboxRowA : Vector Byte 16 :=
  #v[0x47, 0xF1, 0x1A, 0x71, 0x1D, 0x29, 0xC5, 0x89, 0x6F, 0xB7, 0x62, 0x0E, 0xAA, 0x18, 0xBE, 0x1B]
/-- Row B (high nibble 0xB). -/
def invSboxRowB : Vector Byte 16 :=
  #v[0xFC, 0x56, 0x3E, 0x4B, 0xC6, 0xD2, 0x79, 0x20, 0x9A, 0xDB, 0xC0, 0xFE, 0x78, 0xCD, 0x5A, 0xF4]
/-- Row C (high nibble 0xC). -/
def invSboxRowC : Vector Byte 16 :=
  #v[0x1F, 0xDD, 0xA8, 0x33, 0x88, 0x07, 0xC7, 0x31, 0xB1, 0x12, 0x10, 0x59, 0x27, 0x80, 0xEC, 0x5F]
/-- Row D (high nibble 0xD). -/
def invSboxRowD : Vector Byte 16 :=
  #v[0x60, 0x51, 0x7F, 0xA9, 0x19, 0xB5, 0x4A, 0x0D, 0x2D, 0xE5, 0x7A, 0x9F, 0x93, 0xC9, 0x9C, 0xEF]
/-- Row E (high nibble 0xE). -/
def invSboxRowE : Vector Byte 16 :=
  #v[0xA0, 0xE0, 0x3B, 0x4D, 0xAE, 0x2A, 0xF5, 0xB0, 0xC8, 0xEB, 0xBB, 0x3C, 0x83, 0x53, 0x99, 0x61]
/-- Row F (high nibble 0xF). -/
def invSboxRowF : Vector Byte 16 :=
  #v[0x17, 0x2B, 0x04, 0x7E, 0xBA, 0x77, 0xD6, 0x26, 0xE1, 0x69, 0x14, 0x63, 0x55, 0x21, 0x0C, 0x7D]

/-- `INV_SBOX`, 256 entries of 8 bits, by row and column (R92). -/
def invSboxTable : Vector (Vector Byte 16) 16 :=
  #v[invSboxRow0, invSboxRow1, invSboxRow2, invSboxRow3,
     invSboxRow4, invSboxRow5, invSboxRow6, invSboxRow7,
     invSboxRow8, invSboxRow9, invSboxRowA, invSboxRowB,
     invSboxRowC, invSboxRowD, invSboxRowE, invSboxRowF]

/-- `RCON`, 11 entries of 8 bits (R93); entry 0 is the open parameter `RCON0`. -/
def rconTable : Vector Byte 11 :=
  #v[Config.rcon0, 0x01, 0x02, 0x04, 0x08, 0x10, 0x20, 0x40, 0x80, 0x1B, 0x36]

/-- The S-box lookup (R90). -/
def substitute (b : Byte) : Byte := sboxTable[b.toNat / 16][b.toNat % 16]

/-- The inverse S-box lookup (R92). -/
def inverseSubstitute (b : Byte) : Byte := invSboxTable[b.toNat / 16][b.toNat % 16]

/-- The round-constant lookup, on the declared domain 0..10 (R93; 90_conflicts.md C1). -/
def roundConstant (j : Fin 11) : Byte := rconTable[j.val]

end Sys2Proof.Machine
end

