-- ==== Sys2Proof/Machine/KeySchedule.lean ====
section
/-! DEFINITION. The key scheduler: `expand` and the micro-operation `KX` (42_key_schedule.md R120 to R126). -/

namespace Sys2Proof.Machine

/-- RotWord: the byte at offset 1 moves to offset 0 (R121). -/
def rotWord (t : Word) : Word := #v[t[1], t[2], t[3], t[0]]

/-- SubWord: every byte through `SBOX` (R122). -/
def subWord (t : Word) : Word := #v[substitute t[0], substitute t[1], substitute t[2], substitute t[3]]

/-- The constant lands on the first byte of the word only (R120). -/
def addRoundConstant (j : Fin 11) (t : Word) : Word := #v[t[0] ^^^ roundConstant j, t[1], t[2], t[3]]

/-- The exclusive or of two words, byte by byte. -/
def xorWord (a b : Word) : Word := #v[a[0] ^^^ b[0], a[1] ^^^ b[1], a[2] ^^^ b[2], a[3] ^^^ b[3]]

/-- The value `temp` of R120 for word `n + 4`, from the previous word. -/
def scheduleTemp (n : Fin 40) (prev : Word) : Word :=
  if (n.val + 4) % 4 = 0 then addRoundConstant ⟨(n.val + 4) / 4, by omega⟩ (subWord (rotWord prev)) else prev

/-- One body of the loop of R120, at word index `i = n + 4`: word `i` is word `i - 4` xor `temp` (R123). -/
def expandWord (n : Fin 40) (xk : ExpandedKey) : ExpandedKey :=
  setXkWord ⟨n.val + 4, by omega⟩
    (xorWord (xkWord ⟨n.val, by omega⟩ xk) (scheduleTemp n (xkWord ⟨n.val + 3, by omega⟩ xk))) xk

/-- The first `n` bodies of the loop of R120, in increasing order of the word index. -/
def expandWords : (n : Nat) → n ≤ 40 → ExpandedKey → ExpandedKey
  | 0, _, xk => xk
  | n + 1, h, xk => expandWord ⟨n, by omega⟩ (expandWords n (by omega) xk)

/-- `expand(K)`: the 176 bytes of the expanded key (R120). -/
def expand (k : Block) : ExpandedKey := expandWords 40 (by omega) (loadKey k (Vector.replicate 176 0))

/-- `KX i`: word `i` of the expanded key, then `UPC <- UPC + 1` (R123). -/
def execKx (arg : BitVec 6) (s : State) : Result :=
  if h : 4 ≤ arg.toNat ∧ arg.toNat ≤ 43 then
    .next (advance { s with xk := expandWord ⟨arg.toNat - 4, by omega⟩ s.xk })
  else .refused .reservedMicroOperation

end Sys2Proof.Machine
end

