-- ==== Sys2Proof/Machine/Galois.lean ====
section
/-! DEFINITION. The GF(2^8) byte multiplier (41_galois.md R100 to R104). -/

namespace Sys2Proof.Machine

/-- Addition in the field is bitwise exclusive or (R101). -/
def gadd (a b : Byte) : Byte := a ^^^ b

/-- Multiplication by `x`: shift left, and reduce when the high bit leaves (R103). -/
def xtime (a : Byte) : Byte := (a <<< 1) ^^^ (if a.getLsbD 7 then Config.reduction else 0)

/-- One iteration of the loop of R102 at bit `n` of `b`, on the pair of `acc` and the local copy of `a`. -/
def gmulIteration (b : Byte) (p : Byte × Byte) (n : Nat) : Byte × Byte :=
  (if b.getLsbD n then gadd p.1 p.2 else p.1, xtime p.2)

/-- `gmul(a, b)`: eight iterations, from the least significant bit of `b` (R102). -/
def gmul (a b : Byte) : Byte := ((List.range 8).foldl (gmulIteration b) (0, a)).1

/-- `MUL2` (R104). -/
def mul2 (a : Byte) : Byte := gmul a 0x02
/-- `MUL3` (R104). -/
def mul3 (a : Byte) : Byte := gmul a 0x03
/-- `MUL9` (R104). -/
def mul9 (a : Byte) : Byte := gmul a 0x09
/-- `MULB` (R104). -/
def mulB (a : Byte) : Byte := gmul a 0x0B
/-- `MULD` (R104). -/
def mulD (a : Byte) : Byte := gmul a 0x0D
/-- `MULE` (R104). -/
def mulE (a : Byte) : Byte := gmul a 0x0E

end Sys2Proof.Machine
end

