-- ==== Sys2Proof/Machine/RoundTransforms.lean ====
section
/-! DEFINITION. The round function datapath: the seven transforms and their micro-operations (43_round_transforms.md R130 to
R136). -/

namespace Sys2Proof.Machine

/-- SubBytes: every byte through `SBOX`, in place (R130). -/
def subBytes (s : Block) : Block := Vector.ofFn fun k : Fin 16 => substitute s[k.val]

/-- InvSubBytes: every byte through `INV_SBOX` (R131). -/
def invSubBytes (s : Block) : Block := Vector.ofFn fun k : Fin 16 => inverseSubstitute s[k.val]

/-- ShiftRows: `new[4c + r] <- S[4((c + r) mod 4) + r]` (R132). -/
def shiftRows (s : Block) : Block :=
  Vector.ofFn fun k : Fin 16 => s[4 * ((k.val / 4 + k.val % 4) % 4) + k.val % 4]

/-- InvShiftRows: `new[4c + r] <- S[4((c - r) mod 4) + r]`, the remainder never negative (R133, 00_scope.md R8). -/
def invShiftRows (s : Block) : Block :=
  Vector.ofFn fun k : Fin 16 => s[4 * ((k.val / 4 + 4 - k.val % 4) % 4) + k.val % 4]

/-- One column through the forward matrix, row 0 `[02, 03, 01, 01]` (R134). -/
def mixColumn (a : Word) : Word :=
  #v[gmul a[0] 0x02 ^^^ gmul a[1] 0x03 ^^^ a[2] ^^^ a[3],
     a[0] ^^^ gmul a[1] 0x02 ^^^ gmul a[2] 0x03 ^^^ a[3],
     a[0] ^^^ a[1] ^^^ gmul a[2] 0x02 ^^^ gmul a[3] 0x03,
     gmul a[0] 0x03 ^^^ a[1] ^^^ a[2] ^^^ gmul a[3] 0x02]

/-- One column through the inverse matrix, row 0 `[0E, 0B, 0D, 09]` (R135). -/
def invMixColumn (a : Word) : Word :=
  #v[gmul a[0] 0x0E ^^^ gmul a[1] 0x0B ^^^ gmul a[2] 0x0D ^^^ gmul a[3] 0x09,
     gmul a[0] 0x09 ^^^ gmul a[1] 0x0E ^^^ gmul a[2] 0x0B ^^^ gmul a[3] 0x0D,
     gmul a[0] 0x0D ^^^ gmul a[1] 0x09 ^^^ gmul a[2] 0x0E ^^^ gmul a[3] 0x0B,
     gmul a[0] 0x0B ^^^ gmul a[1] 0x0D ^^^ gmul a[2] 0x09 ^^^ gmul a[3] 0x0E]

/-- MixColumns (R134). -/
def mixColumns (s : Block) : Block := mapColumns mixColumn s

/-- InvMixColumns (R135). -/
def invMixColumns (s : Block) : Block := mapColumns invMixColumn s

/-- The exclusive or of two blocks, byte by byte. -/
def xorBlock (a b : Block) : Block := Vector.ofFn fun k : Fin 16 => a[k.val] ^^^ b[k.val]

/-- AddRoundKey with round key `r` (R136). -/
def addRoundKey (s : Block) (xk : ExpandedKey) (r : Fin 11) : Block := xorBlock s (roundKey r xk)

/-- `ARK r` (R136). -/
def execArk (arg : BitVec 6) (s : State) : Result :=
  if h : arg.toNat ≤ 10 then transformState (fun b => addRoundKey b s.xk ⟨arg.toNat, by omega⟩) s
  else .refused .reservedMicroOperation

/-- `SB` (R130). -/
def execSb (s : State) : Result := transformState subBytes s

/-- `SR` (R132). -/
def execSr (s : State) : Result := transformState shiftRows s

/-- `MC` (R134). -/
def execMc (s : State) : Result := transformState mixColumns s

/-- `ISB` (R131). -/
def execIsb (s : State) : Result := transformState invSubBytes s

/-- `ISR` (R133). -/
def execIsr (s : State) : Result := transformState invShiftRows s

/-- `IMC` (R135). -/
def execImc (s : State) : Result := transformState invMixColumns s

end Sys2Proof.Machine
end

