-- ==== Sys2Proof/Machine/BlockCipher.lean ====
section
/-! DEFINITION. The orchestrator's functions `encrypt` and `decrypt` (44_block_cipher.md R150, R151), the four commands (R154 to
R157) and the two micro-operations that end an operation (R163, R164). -/

namespace Sys2Proof.Machine

/-- The state after the initial whitening and `n` full rounds of `encrypt` (R150). -/
def encryptRounds (w : ExpandedKey) (p : Block) : (n : Nat) → n ≤ 9 → Block
  | 0, _ => addRoundKey p w 0
  | n + 1, h =>
    addRoundKey (mixColumns (shiftRows (subBytes (encryptRounds w p n (by omega))))) w ⟨n + 1, by omega⟩

/-- `encrypt(P, K)`: nine full rounds and a final one without MixColumns (R150). -/
def encrypt (p k : Block) : Block :=
  let w := expand k
  addRoundKey (shiftRows (subBytes (encryptRounds w p 9 (by omega)))) w 10

/-- The state after the initial whitening and `n` of the rounds 9, 8, ..., 1 of `decrypt` (R151). -/
def decryptRounds (w : ExpandedKey) (c : Block) : (n : Nat) → n ≤ 9 → Block
  | 0, _ => addRoundKey c w 10
  | n + 1, h =>
    invMixColumns (addRoundKey (invSubBytes (invShiftRows (decryptRounds w c n (by omega)))) w ⟨9 - n, by omega⟩)

/-- `decrypt(C, K)`: the round keys in the order 10, 9, ..., 0 (R151). -/
def decrypt (c k : Block) : Block :=
  let w := expand k
  addRoundKey (invSubBytes (invShiftRows (decryptRounds w c 9 (by omega)))) w 0

/-- `NOP`: nothing changes, busy or idle (R154). -/
def execNop (s : State) : Result := .next s

/-- `EXPAND_KEY`: dropped while busy, else accepted whatever the lengths (R155, 42_key_schedule.md R126). -/
def execExpandKey (s : State) : Result := if busy s then .next s else .next (startOperation .expandKey s)

/-- `ENCRYPT_BLOCK` (R156). -/
def execEncryptBlock (s : State) : Result := commandBlockOperation .encryptBlock s

/-- `DECRYPT_BLOCK` (R157). -/
def execDecryptBlock (s : State) : Result := commandBlockOperation .decryptBlock s

/-- `FIN`: the result latched, `S` and `XK` released, the operation ended, in one transition (R163). -/
def execFin (s : State) : Result :=
  .next (endOperation
    { s with out := s.st, outv := true, st := Vector.replicate 16 0, xk := Vector.replicate 176 0 })

/-- `FINX`: the expanded key made readable, the operation ended (R164). -/
def execFinx (s : State) : Result := .next (endOperation { s with xkv := true })

end Sys2Proof.Machine
end

