-- ==== Sys2Proof/Machine/Dispatch.lean ====
section
/-! DEFINITION. One arm per instruction, each one direct call of its meaning. -/

namespace Sys2Proof.Machine

def exec (i : Instr) (s : State) : Host.Outcome State Fault Refusal :=
  match i with
  | .nop => Sys2Proof.Machine.execNop s
  | .expandKey => Sys2Proof.Machine.execExpandKey s
  | .encryptBlock => Sys2Proof.Machine.execEncryptBlock s
  | .decryptBlock => Sys2Proof.Machine.execDecryptBlock s
  | .kx arg => Sys2Proof.Machine.execKx arg s
  | .ark arg => Sys2Proof.Machine.execArk arg s
  | .sb => Sys2Proof.Machine.execSb s
  | .sr => Sys2Proof.Machine.execSr s
  | .mc => Sys2Proof.Machine.execMc s
  | .isb => Sys2Proof.Machine.execIsb s
  | .isr => Sys2Proof.Machine.execIsr s
  | .imc => Sys2Proof.Machine.execImc s
  | .fin => Sys2Proof.Machine.execFin s
  | .finx => Sys2Proof.Machine.execFinx s

end Sys2Proof.Machine
end

