-- ==== Sys2Proof/Machine/Sequencer.lean ====
section
/-! DEFINITION. The sequencer: the three micro-programs as the constant words of the spec's listings (44_block_cipher.md R160 to
R162, programs P-EXP, P-ENC, P-DEC), the fetch at `(OPR, UPC)`, and the core step (R159). -/

namespace Sys2Proof.Machine

/-- `KX 4` .. `KX 43` at `UPC` 0..39, the head of all three micro-programs (R160). -/
def expansionWords : List (BitVec 10) :=
  [0x044, 0x045, 0x046, 0x047, 0x048, 0x049, 0x04A, 0x04B, 0x04C, 0x04D,
   0x04E, 0x04F, 0x050, 0x051, 0x052, 0x053, 0x054, 0x055, 0x056, 0x057,
   0x058, 0x059, 0x05A, 0x05B, 0x05C, 0x05D, 0x05E, 0x05F, 0x060, 0x061,
   0x062, 0x063, 0x064, 0x065, 0x066, 0x067, 0x068, 0x069, 0x06A, 0x06B]

/-- `UPC` 40..80 of `ENCRYPT_BLOCK`: whitening, ten rounds, `FIN` (R161). -/
def encryptWords : List (BitVec 10) :=
  [0x080,
   0x0C0, 0x100, 0x140, 0x081,
   0x0C0, 0x100, 0x140, 0x082,
   0x0C0, 0x100, 0x140, 0x083,
   0x0C0, 0x100, 0x140, 0x084,
   0x0C0, 0x100, 0x140, 0x085,
   0x0C0, 0x100, 0x140, 0x086,
   0x0C0, 0x100, 0x140, 0x087,
   0x0C0, 0x100, 0x140, 0x088,
   0x0C0, 0x100, 0x140, 0x089,
   0x0C0, 0x100, 0x08A, 0x240]

/-- `UPC` 40..80 of `DECRYPT_BLOCK`: whitening, ten rounds, `FIN` (R162). -/
def decryptWords : List (BitVec 10) :=
  [0x08A,
   0x1C0, 0x180, 0x089, 0x200,
   0x1C0, 0x180, 0x088, 0x200,
   0x1C0, 0x180, 0x087, 0x200,
   0x1C0, 0x180, 0x086, 0x200,
   0x1C0, 0x180, 0x085, 0x200,
   0x1C0, 0x180, 0x084, 0x200,
   0x1C0, 0x180, 0x083, 0x200,
   0x1C0, 0x180, 0x082, 0x200,
   0x1C0, 0x180, 0x081, 0x200,
   0x1C0, 0x180, 0x080, 0x240]

/-- The word of `FINX`, at `UPC` 40 of `EXPAND_KEY` (R160). -/
def finxWord : BitVec 10 := 0x280

/-- The word of `FIN`, at `UPC` 80 of the two block operations (R161, R162). -/
def finWord : BitVec 10 := 0x240

/-- The micro-program of each operation; an idle core has none (30_encoding.md R78). -/
def microProgram : Operation → List (BitVec 10)
  | .idle => []
  | .expandKey => expansionWords ++ [finxWord]
  | .encryptBlock => expansionWords ++ encryptWords
  | .decryptBlock => expansionWords ++ decryptWords

/-- The last word of a micro-program, which the last branch of `uop` in R159 gives for every larger `UPC` too (log 5). -/
def lastWord : Operation → Option (BitVec 10)
  | .idle => none
  | .expandKey => some finxWord
  | .encryptBlock => some finWord
  | .decryptBlock => some finWord

/-- The micro-operation word at `(OPR, UPC)`; an idle core fetches nothing (R78). -/
def microWord (op : Operation) (upc : BitVec 7) : Option (BitVec 10) :=
  match (microProgram op)[upc.toNat]? with
  | some w => some w
  | none => lastWord op

/-- The micro-operation the core step executes: the word at `(OPR, UPC)`, decoded. -/
def fetch (s : State) : Option Instr :=
  match microWord s.opr s.upc with
  | none => none
  | some w =>
    match decodeMicro w with
    | .ok i => some i
    | .error _ => none

/-- `uop(OPR, UPC)` as the formula of R159, a second form of the micro-programs; `none` where the core is idle. -/
def uop (op : Operation) (upc : BitVec 7) : Option Instr :=
  let n := upc.toNat
  let i := n - 41
  if op = .idle then none
  else if n ≤ 39 then some (.kx (BitVec.ofNat 6 (n + 4)))
  else if op = .expandKey then some .finx
  else if n = 40 then some (if op = .encryptBlock then .ark 0 else .ark 10)
  else if n ≤ 76 then
    if op = .encryptBlock then
      match i % 4 with
      | 0 => some .sb
      | 1 => some .sr
      | 2 => some .mc
      | _ => some (.ark (BitVec.ofNat 6 (i / 4 + 1)))
    else
      match i % 4 with
      | 0 => some .isr
      | 1 => some .isb
      | 2 => some (.ark (BitVec.ofNat 6 (9 - i / 4)))
      | _ => some .imc
  else if n = 77 then some (if op = .encryptBlock then .sb else .isr)
  else if n = 78 then some (if op = .encryptBlock then .sr else .isb)
  else if n = 79 then some (if op = .encryptBlock then .ark 10 else .ark 0)
  else some .fin

/-- The core step: the fetched micro-operation executed (R159). -/
def coreStep (s : State) : Result :=
  match fetch s with
  | some i => exec i s
  | none => .refused .reservedMicroOperation

/-- The first place of a word in a micro-program. -/
def placeIn (op : Operation) (w : BitVec 10) : Option (Operation × BitVec 7) :=
  match (microProgram op).findIdx? (fun x => x == w) with
  | some n => some (op, BitVec.ofNat 7 n)
  | none => none

/-- A place `(OPR, UPC)` that holds a micro-operation word, the first in the order of R160, R161, R162; a reserved word has none
(30_encoding.md R77). -/
def placeOf (w : BitVec 10) : Option (Operation × BitVec 7) :=
  match placeIn .expandKey w with
  | some p => some p
  | none =>
    match placeIn .encryptBlock w with
    | some p => some p
    | none => placeIn .decryptBlock w

end Sys2Proof.Machine
end

