-- ==== Sys2Proof/Machine/Port.lean ====
section
/-! DEFINITION. The host's transitions at the port: a command, a write, a read, reset and the repeated STATUS read `WAIT`
(20_memory.md R53, R54; 44_block_cipher.md R153; 30_encoding.md R79, R80). -/

namespace Sys2Proof.Machine

/-- The effect of a write of byte `v` to `CMD`: the decoded command's, and for a reserved byte a drop, which is a transition that
leaves the state equal (30_encoding.md R73, 44_block_cipher.md R153). -/
def command (v : Byte) (s : State) : Result :=
  match decodeCommand v with
  | .ok i => exec i s
  | .error _ => .next s

/-- `MemWrite(a, 1, v)` (R54). -/
def hostWrite (a v : Byte) (s : State) : Result :=
  if a = 0x00 then command v s else .next (writeRegister a v s)

/-- `MemRead(a, 1)` as a transition: the core keeps its state and the host receives the byte (R53). -/
def hostRead (a : Byte) (s : State) : State := { s with reads := s.reads ++ [(a, memRead a s)] }

/-- The address of `STATUS` (10_state.md R34). -/
def statusAddress : Byte := 0x01

/-- One repetition of `WAIT`: a read of `STATUS`; the access stays pending while bit 0, `BUSY`, of the value read is 1 (R80,
log 11). -/
def hostWait (s : State) : State :=
  let t := hostRead statusAddress s
  if (memRead statusAddress s).getLsbD 0 then { t with pending := .wait :: t.pending } else t

/-- One host access, already taken from `pending`. -/
def hostAccess : HostAccess → State → Result
  | .write a v, s => hostWrite a v s
  | .read a, s => .next (hostRead a s)
  | .reset, s => .next (resetCore s)
  | .wait, s => .next (hostWait s)

end Sys2Proof.Machine
end

