-- ==== Sys2Proof/Machine/Scheduler.lean ====
section
/-! DEFINITION. The one total order of transitions (20_memory.md R60): which of the two agents moves next, the transition it makes,
and a finite schedule of moves. -/

namespace Sys2Proof.Machine

/-- The choice between host and core where both can move: the fixed part of the order first, past its end the free value
(log 1). -/
def chooseAgent (s : State) : Agent × State :=
  match s.sched with
  | a :: rest => (a, { s with sched := rest })
  | [] => (if Config.coreMovesNext s.turn then .core else .host, { s with turn := s.turn + 1 })

/-- The host makes its oldest pending access. -/
def hostStep (a : HostAccess) (rest : List HostAccess) (s : State) : Result := hostAccess a { s with pending := rest }

/-- One transition: the only agent that can move, or the chosen one of the two; with no access pending an idle core has no step
and keeps all its state (60_exceptions.md R189, log 2). -/
def transition (s : State) : Result :=
  match s.pending, busy s with
  | [], false => .next s
  | [], true => coreStep s
  | a :: rest, false => hostStep a rest s
  | a :: rest, true =>
    match chooseAgent s with
    | (.core, t) => coreStep t
    | (.host, t) => hostStep a rest t

/-- One move of the order of R60: a core step or a host access. -/
inductive Move where
  | core
  | host (a : HostAccess)
  deriving DecidableEq, Repr

/-- A move made: the core has a step only while `OPR != 0` (R60 item 3); an idle core named in a schedule keeps its state. -/
def makeMove (m : Move) (s : State) : Result :=
  match m with
  | .core => if busy s then coreStep s else .next s
  | .host a => hostAccess a s

/-- A finite schedule of moves, first to last. -/
def makeMoves : List Move → State → Result
  | [], s => .next s
  | m :: ms, s =>
    match makeMove m s with
    | .next t => makeMoves ms t
    | .fault r => .fault r
    | .refused r => .refused r

/-- How many core steps a schedule holds. -/
def coreMoves : List Move → Nat
  | [] => 0
  | .core :: ms => coreMoves ms + 1
  | .host _ :: ms => coreMoves ms

/-- The state with the instruction's word placed where the next transition takes it from: a command byte as the host's next
access, a write to `CMD`; a micro-operation word by its place in a micro-program, the core to move next; a reserved word has no
place (log 4). -/
def placeWord (e : Encoded) (s : State) : State :=
  match e with
  | .command v =>
    let t := { s with pending := .write 0x00 v :: s.pending }
    if busy s then { t with sched := .host :: s.sched } else t
  | .micro w =>
    match placeOf w with
    | none => s
    | some (op, upc) =>
      let t := { s with opr := op, upc := upc }
      if s.pending = [] then t else { t with sched := .core :: s.sched }

end Sys2Proof.Machine
end

