-- ==== Sys2Proof/Machine/Step.lean ====
section
/-! DEFINITION. One step of the machine, and the state whose next step runs a given word. -/

namespace Sys2Proof.Machine

/-- One step: one transition of the total order (20_memory.md R60). -/
def step (s : State) : Host.Outcome State Fault Refusal := transition s

/-- `s` with the word of `nbits` bits and value `w` placed so that the next step runs it (log 4); bits that are no word of the
core change nothing. -/
def State.withFetchWord (s : State) (nbits w : Nat) : State :=
  match encodedOfTable nbits w with
  | none => s
  | some e => placeWord e s

end Sys2Proof.Machine
end

