-- ==== Sys2Proof/Machine/HostProgram.lean ====
section
/-! DEFINITION. The pseudo-instructions of the host syntax as lists of host accesses (30_encoding.md R80). -/

namespace Sys2Proof.Machine

/-- `WR base+i, X[i]` in order, from offset `i`. -/
def writeRun (base : Byte) : Nat → List Byte → List HostAccess
  | _, [] => []
  | i, x :: xs => .write (base + BitVec.ofNat 8 i) x :: writeRun base (i + 1) xs

/-- `RD base+i` for the offsets `0 .. n-1` in order. -/
def readRun (base : Byte) (n : Nat) : List HostAccess := (List.range n).map fun i => .read (base + BitVec.ofNat 8 i)

/-- `LOADKEY X`. -/
def loadKeyProgram (x : Block) : List HostAccess := writeRun 0x10 0 x.toList ++ [.write 0x03 0x10]

/-- `LOADBLK X`. -/
def loadBlkProgram (x : Block) : List HostAccess := writeRun 0x20 0 x.toList ++ [.write 0x04 0x10]

/-- `LOADKEYN n, X`: a key argument of declared length `n`, at most 16 of its bytes written. -/
def loadKeyNProgram (n : Byte) (x : List Byte) : List HostAccess :=
  writeRun 0x10 0 (x.take (min n.toNat 16)) ++ [.write 0x03 n]

/-- `LOADBLKN n, X`. -/
def loadBlkNProgram (n : Byte) (x : List Byte) : List HostAccess :=
  writeRun 0x20 0 (x.take (min n.toNat 16)) ++ [.write 0x04 n]

/-- `NOP`, `EXPAND_KEY`, `ENCRYPT_BLOCK`, `DECRYPT_BLOCK`: the write of the command's byte to `CMD`. -/
def commandProgram (v : Byte) : List HostAccess := [.write 0x00 v]

/-- `WAIT` (log 11). -/
def waitProgram : List HostAccess := [.wait]

/-- `READOUT`. -/
def readOutProgram : List HostAccess := readRun 0x30 16

/-- `READXK`. -/
def readXkProgram : List HostAccess := readRun 0x40 176

end Sys2Proof.Machine
end

