-- ==== Sys2Proof/Machine/Instances.lean ====
section
/-! DEFINITION. Several cores: the product of independent models of one core, their transitions interleaved freely
(60_exceptions.md R190, log 14). -/

namespace Sys2Proof.Machine

/-- One transition of instance `k` of a chip of `n` cores: the core's own step, every other instance as it was. -/
def stepInstance {n : Nat} (k : Fin n) (chip : Vector State n) : Host.Outcome (Vector State n) Fault Refusal :=
  match step chip[k] with
  | .next t => .next (chip.set k t)
  | .fault r => .fault r
  | .refused r => .refused r

end Sys2Proof.Machine
end

