-- ==== Sys2Proof/Safety.lean ====
section
/-! DEFINITION. What counts as a good state and a good run, in the terms the statements use: the invariants of 10_state.md R37, what
the host can see (R36), and schedules without reset. -/

namespace Sys2Proof.Machine

/-- The largest assigned `UPC` of each operation (30_encoding.md R78). -/
def lastUpc : Operation → Nat
  | .idle => 0
  | .expandKey => 40
  | .encryptBlock => 80
  | .decryptBlock => 80

/-- While `EXPAND_KEY` runs, the words already computed are those of the expansion of round key 0: what makes item 8 of R37
inductive. -/
def State.ExpandingPrefix (s : State) : Prop :=
  s.opr = .expandKey →
    ∀ k : Fin 176, k.val < 16 + 4 * s.upc.toNat → s.xk[k.val] = (expand (roundKey 0 s.xk))[k.val]

/-- The control invariants, items 1 to 7 of 10_state.md R37. -/
def State.ControlInv (s : State) : Prop :=
  (s.opr = .idle → s.upc = 0) ∧
  s.upc.toNat ≤ lastUpc s.opr ∧
  (s.done = true → s.opr = .idle ∧ s.err = false) ∧
  (s.err = true → s.opr = .idle ∧ s.done = false ∧ s.errcode = 0x01) ∧
  (s.err = false → s.errcode = 0x00) ∧
  (s.xkv = true → s.opr = .idle) ∧
  (s.outv = true → s.opr = .idle ∨ s.opr = .expandKey) ∧
  (s.errcode = 0x00 ∨ s.errcode = 0x01)

/-- The invariants of 10_state.md R37, items 1 to 8, with the prefix that item 8 needs while the expansion runs. -/
def State.Inv (s : State) : Prop :=
  s.ControlInv ∧ (s.xkv = true → s.xk = expand (roundKey 0 s.xk)) ∧ s.ExpandingPrefix

/-- Two states the host cannot tell apart at the port: everything it can read agrees, and of `OPR` only `BUSY` (10_state.md R36). -/
def SameVisible (s t : State) : Prop :=
  s.key = t.key ∧ s.block = t.block ∧ s.keylen = t.keylen ∧ s.blklen = t.blklen ∧
  s.done = t.done ∧ s.err = t.err ∧ s.xkv = t.xkv ∧ s.outv = t.outv ∧ s.errcode = t.errcode ∧
  busy s = busy t ∧ (s.outv = true → s.out = t.out) ∧ (s.xkv = true → s.xk = t.xk) ∧
  s.pending = t.pending ∧ s.reads = t.reads

/-- A schedule holds no reset (44_block_cipher.md R165 is about host reads and writes). -/
def NoReset (ms : List Move) : Prop := .host .reset ∉ ms

/-- What the host's writes of a schedule alone make of the operand registers, the core's steps left out (R165: "as the host last
wrote them"). -/
def hostWritesOnly : List Move → State → State
  | [], s => s
  | .host (.write a v) :: ms, s => hostWritesOnly ms (writeRegister a v s)
  | _ :: ms, s => hostWritesOnly ms s

/-- `n` core steps and nothing else. -/
def coreSteps (n : Nat) : List Move := List.replicate n .core

/-- The host's accesses as moves. -/
def hostMoves (as : List HostAccess) : List Move := as.map .host

/-- The permutation `p` of offsets of `SR` (43_round_transforms.md R132). -/
def srOffsets : Vector (Fin 16) 16 := #v[0, 5, 10, 15, 4, 9, 14, 3, 8, 13, 2, 7, 12, 1, 6, 11]

/-- The permutation `q` of offsets of `ISR` (R133). -/
def isrOffsets : Vector (Fin 16) 16 := #v[0, 13, 10, 7, 4, 1, 14, 11, 8, 5, 2, 15, 12, 9, 6, 3]

/-- Entry `(r, m)` of the matrix whose row 0 is `row` and whose row `r` is row 0 rotated right by `r` places (R134, R135). -/
def rotatedEntry (row : Vector Byte 4) (r m : Fin 4) : Byte := row[(m.val + 4 - r.val) % 4]

/-- Row 0 of the forward matrix (R134). -/
def mixRow : Vector Byte 4 := #v[0x02, 0x03, 0x01, 0x01]

/-- Row 0 of the inverse matrix (R135). -/
def invMixRow : Vector Byte 4 := #v[0x0E, 0x0B, 0x0D, 0x09]

end Sys2Proof.Machine
end

