-- ==== Sys2Proof/Certificates/Slice0/Obligations.lean ====
section
/-! DEFINITION. The statements for the provers, from the numbered rules of spec/. -/

open Sys2Proof Sys2Proof.Machine

/-! ### Encoding (30_encoding.md) -/

/-- A few words written out from R72 and R75 decode to the instructions they stand for. -/
def Obligations.WordsOfTheMapsDecode : Prop :=
  decodeTableWord 8 0x00 = some .nop ∧ decodeTableWord 8 0x01 = some .expandKey ∧
  decodeTableWord 8 0x02 = some .encryptBlock ∧ decodeTableWord 8 0x03 = some .decryptBlock ∧
  decodeTableWord 16 0x044 = some (.kx 4) ∧ decodeTableWord 16 0x06B = some (.kx 43) ∧
  decodeTableWord 16 0x080 = some (.ark 0) ∧ decodeTableWord 16 0x08A = some (.ark 10) ∧
  decodeTableWord 16 0x0C0 = some .sb ∧ decodeTableWord 16 0x200 = some .imc ∧
  decodeTableWord 16 0x240 = some .fin ∧ decodeTableWord 16 0x280 = some .finx ∧
  decodeTableWord 8 0x82 = none ∧ decodeTableWord 16 0x040 = none

/-- Every instruction of R72 and R75 decodes from its encoding, with every argument R76 allows. -/
def Obligations.EveryEncodedInstructionDecodesBack : Prop :=
  ∀ i : Instr, i.wf = true → decode (encode i) = .ok i

/-- A word that decodes is the encoding of what it decodes to, which is a legal instruction: no two words mean one instruction. -/
def Obligations.EveryDecodedWordEncodesBack : Prop :=
  ∀ (e : Encoded) (i : Instr), decode e = .ok i → encode i = e ∧ i.wf = true

/-- R77: exactly the reserved words are rejected, and no micro-program holds one. -/
def Obligations.ReservedMicroWordsRejectedAndAbsent : Prop :=
  (∀ w : BitVec 10,
    (∃ err, decodeMicro w = .error err) ↔
      (w.toNat / 64 = 0 ∨ 0xB ≤ w.toNat / 64) ∨
      (w.toNat / 64 = 1 ∧ (w.toNat % 64 ≤ 3 ∨ 44 ≤ w.toNat % 64)) ∨
      (w.toNat / 64 = 2 ∧ 11 ≤ w.toNat % 64) ∨
      (3 ≤ w.toNat / 64 ∧ w.toNat / 64 ≤ 0xA ∧ w.toNat % 64 ≠ 0)) ∧
  (∀ op : Operation, ∀ w ∈ microProgram op, ∃ i, decodeMicro w = .ok i)

/-- R159 on the assigned addresses of R78: at a busy state the word the micro-programs of R160 to R162 hold decodes to
`uop(OPR, UPC)`, and the core step executes it. Past the assigned addresses, which no run reaches, that a core step executes a
micro-operation at all, and which one, is the model's choice (log 5, DEDUCED). -/
def Obligations.CoreStepExecutesUop : Prop :=
  ∀ s : State, busy s = true →
    ∃ i, uop s.opr s.upc = some i ∧ fetch s = some i ∧ i.wf = true ∧ i.isCommand = false ∧ coreStep s = exec i s

/-! ### Commands (44_block_cipher.md section 2, 60_exceptions.md) -/

/-- R154: `NOP` changes nothing, and neither does the write of its byte to `CMD`, busy or idle. -/
def Obligations.NopChangesNothing : Prop :=
  ∀ s : State, encode .nop = .command 0x00 ∧ exec .nop s = .next s ∧ hostAccess (.write 0x00 0x00) s = .next s

/-- R73: a reserved byte, and any byte while busy, is dropped: the state stays equal. -/
def Obligations.ReservedAndBusyCommandsDropped : Prop :=
  (∀ (v : Byte) (s : State), 0x04 ≤ v.toNat → hostAccess (.write 0x00 v) s = .next s) ∧
  (∀ (v : Byte) (s : State), s.opr ≠ .idle → hostAccess (.write 0x00 v) s = .next s)

/-- R153, R184: the effect of a write of any byte to `CMD` in any state, the whole chain of tests in its order. -/
def Obligations.CommandWriteOutcome : Prop :=
  ∀ (v : Byte) (s : State),
    hostAccess (.write 0x00 v) s =
      if s.opr ≠ .idle then .next s
      else if v = 0x00 then .next s
      else if v = 0x01 then
        .next { s with xk := loadKey s.key s.xk, opr := .expandKey, upc := 0,
                       done := false, err := false, errcode := 0x00, xkv := false }
      else if v = 0x02 ∨ v = 0x03 then
        if s.keylen ≠ 16 ∨ s.blklen ≠ 16 then .next { s with err := true, errcode := 0x01, done := false }
        else
          .next { s with st := s.block, xk := loadKey s.key s.xk,
                         opr := if v = 0x02 then .encryptBlock else .decryptBlock, upc := 0,
                         done := false, err := false, errcode := 0x00, xkv := false, outv := false }
      else .next s

/-- R155: the acceptance of `EXPAND_KEY`: the key in the first sixteen bytes of `XK`, the other bytes and registers as before. -/
def Obligations.ExpandKeyAccepted : Prop :=
  ∀ s : State, s.opr = .idle →
    ∃ t, exec .expandKey s = .next t ∧
      (∀ i : Fin 16, t.xk[i.val] = s.key[i.val]) ∧
      (∀ (k : Nat) (h : k < 176), 16 ≤ k → t.xk[k] = s.xk[k]) ∧
      t = { s with xk := t.xk, opr := .expandKey, upc := 0, done := false, err := false, errcode := 0x00, xkv := false }

/-- R156, R157: the acceptance of the two block operations. -/
def Obligations.BlockOperationsAccepted : Prop :=
  ∀ s : State, s.opr = .idle → s.keylen = 16 → s.blklen = 16 →
    (∃ t, exec .encryptBlock s = .next t ∧
      (∀ i : Fin 16, t.xk[i.val] = s.key[i.val]) ∧
      (∀ (k : Nat) (h : k < 176), 16 ≤ k → t.xk[k] = s.xk[k]) ∧
      t = { s with st := s.block, xk := t.xk, opr := .encryptBlock, upc := 0,
                   done := false, err := false, errcode := 0x00, xkv := false, outv := false }) ∧
    (∃ t, exec .decryptBlock s = .next t ∧
      (∀ i : Fin 16, t.xk[i.val] = s.key[i.val]) ∧
      (∀ (k : Nat) (h : k < 176), 16 ≤ k → t.xk[k] = s.xk[k]) ∧
      t = { s with st := s.block, xk := t.xk, opr := .decryptBlock, upc := 0,
                   done := false, err := false, errcode := 0x00, xkv := false, outv := false })

/-- R181: the reject transition: the three report fields and nothing else; `EXPAND_KEY` does not raise it. -/
def Obligations.WrongLengthRejected : Prop :=
  (∀ (v : Byte) (s : State), v = 0x02 ∨ v = 0x03 → s.opr = .idle → (s.keylen ≠ 16 ∨ s.blklen ≠ 16) →
    hostAccess (.write 0x00 v) s = .next { s with err := true, errcode := 0x01, done := false }) ∧
  (∀ s : State, s.opr = .idle → ∃ t, hostAccess (.write 0x00 0x01) s = .next t ∧ t.err = false ∧ t.opr = .expandKey)

/-- R186: the report stays until an acceptance, whatever move but reset is made, a further rejection included. -/
def Obligations.ErrorReportKeptUntilAcceptance : Prop :=
  ∀ (m : Move) (s t : State), s.ControlInv → s.err = true → m ≠ .host .reset → makeMove m s = .next t →
    (t.err = true ∧ t.errcode = 0x01 ∧ t.opr = .idle) ∨ (t.opr ≠ .idle ∧ t.err = false ∧ t.errcode = 0x00)

/-! ### Micro-operations (42_key_schedule.md, 43_round_transforms.md, 44_block_cipher.md section 3) -/

/-- R123: `KX i` for `i = n + 4`: its four bytes, every other byte of `XK` as before, `UPC` advanced, nothing else changed. -/
def Obligations.KxComputesOneWord : Prop :=
  ∀ (n : Fin 40) (s : State),
    encode (.kx (BitVec.ofNat 6 (n.val + 4))) = .micro (BitVec.ofNat 10 (0x040 + (n.val + 4))) ∧
    ∃ t, exec (.kx (BitVec.ofNat 6 (n.val + 4))) s = .next t ∧
      t = { s with xk := t.xk, upc := s.upc + 1 } ∧
      (∀ (k : Nat) (h : k < 176), k < 4 * (n.val + 4) ∨ 4 * (n.val + 4) + 4 ≤ k → t.xk[k] = s.xk[k]) ∧
      ((n.val + 4) % 4 = 0 →
        t.xk[4 * (n.val + 4)] = s.xk[4 * n.val] ^^^
          (substitute s.xk[4 * (n.val + 3) + 1] ^^^ roundConstant ⟨(n.val + 4) / 4, by omega⟩) ∧
        t.xk[4 * (n.val + 4) + 1] = s.xk[4 * n.val + 1] ^^^ substitute s.xk[4 * (n.val + 3) + 2] ∧
        t.xk[4 * (n.val + 4) + 2] = s.xk[4 * n.val + 2] ^^^ substitute s.xk[4 * (n.val + 3) + 3] ∧
        t.xk[4 * (n.val + 4) + 3] = s.xk[4 * n.val + 3] ^^^ substitute s.xk[4 * (n.val + 3)]) ∧
      ((n.val + 4) % 4 ≠ 0 →
        ∀ j : Fin 4, t.xk[4 * (n.val + 4) + j.val] = s.xk[4 * n.val + j.val] ^^^ s.xk[4 * (n.val + 3) + j.val])

/-- R136: `ARK r`: every byte of `S` xor the same byte of round key `r`, `UPC` advanced, nothing else changed. -/
def Obligations.ArkXorsRoundKey : Prop :=
  ∀ (r : Fin 11) (s : State),
    encode (.ark (BitVec.ofNat 6 r.val)) = .micro (BitVec.ofNat 10 (0x080 + r.val)) ∧
    ∃ t, exec (.ark (BitVec.ofNat 6 r.val)) s = .next t ∧
      t = { s with st := t.st, upc := s.upc + 1 } ∧
      ∀ k : Fin 16, t.st[k.val] = s.st[k.val] ^^^ s.xk[16 * r.val + k.val]

/-- R130, R131: `SB` and `ISB` substitute every byte of `S` in place, and change nothing else but `UPC`. -/
def Obligations.SubstitutionsActOnEveryByte : Prop :=
  ∀ s : State,
    (encode .sb = .micro 0x0C0 ∧ ∃ t, exec .sb s = .next t ∧
      t = { s with st := t.st, upc := s.upc + 1 } ∧ ∀ k : Fin 16, t.st[k.val] = substitute s.st[k.val]) ∧
    (encode .isb = .micro 0x180 ∧ ∃ t, exec .isb s = .next t ∧
      t = { s with st := t.st, upc := s.upc + 1 } ∧ ∀ k : Fin 16, t.st[k.val] = inverseSubstitute s.st[k.val])

/-- R132, R133: `SR` and `ISR` are the permutations `p` and `q` of the offsets, and change nothing else but `UPC`. -/
def Obligations.ShiftRowsPermutesOffsets : Prop :=
  ∀ s : State,
    (encode .sr = .micro 0x100 ∧ ∃ t, exec .sr s = .next t ∧
      t = { s with st := t.st, upc := s.upc + 1 } ∧ ∀ k : Fin 16, t.st[k.val] = s.st[(srOffsets[k.val]).val]) ∧
    (encode .isr = .micro 0x1C0 ∧ ∃ t, exec .isr s = .next t ∧
      t = { s with st := t.st, upc := s.upc + 1 } ∧ ∀ k : Fin 16, t.st[k.val] = s.st[(isrOffsets[k.val]).val])

/-- R134, R135: `MC` and `IMC` are the matrix products over the field, column by column, the rows being row 0 rotated right, and
change nothing else but `UPC`. -/
def Obligations.MixColumnsIsTheMatrixProduct : Prop :=
  ∀ s : State,
    (encode .mc = .micro 0x140 ∧ ∃ t, exec .mc s = .next t ∧
      t = { s with st := t.st, upc := s.upc + 1 } ∧
      ∀ c r : Fin 4, t.st[4 * c.val + r.val] =
        gmul s.st[4 * c.val] (rotatedEntry mixRow r 0) ^^^ gmul s.st[4 * c.val + 1] (rotatedEntry mixRow r 1) ^^^
        gmul s.st[4 * c.val + 2] (rotatedEntry mixRow r 2) ^^^ gmul s.st[4 * c.val + 3] (rotatedEntry mixRow r 3)) ∧
    (encode .imc = .micro 0x200 ∧ ∃ t, exec .imc s = .next t ∧
      t = { s with st := t.st, upc := s.upc + 1 } ∧
      ∀ c r : Fin 4, t.st[4 * c.val + r.val] =
        gmul s.st[4 * c.val] (rotatedEntry invMixRow r 0) ^^^ gmul s.st[4 * c.val + 1] (rotatedEntry invMixRow r 1) ^^^
        gmul s.st[4 * c.val + 2] (rotatedEntry invMixRow r 2) ^^^ gmul s.st[4 * c.val + 3] (rotatedEntry invMixRow r 3))

/-- R163: `FIN` latches the result, releases `S` and `XK` and ends the operation; nothing else changes; of the assigned addresses
it stands only at `UPC = 80`. -/
def Obligations.FinLatchesAndReleases : Prop :=
  (∀ s : State, encode .fin = .micro 0x240 ∧
    ∃ t, exec .fin s = .next t ∧
      (∀ k : Fin 16, t.out[k.val] = s.st[k.val] ∧ t.st[k.val] = 0x00) ∧
      (∀ k : Fin 176, t.xk[k.val] = 0x00) ∧
      t = { s with out := t.out, st := t.st, xk := t.xk, outv := true, opr := .idle, upc := 0, done := true }) ∧
  (∀ s : State, s.upc.toNat ≤ lastUpc s.opr → (fetch s = some .fin ↔ s.upc.toNat = 80))

/-- R164: `FINX` makes the expanded key readable and ends the operation; nothing else changes; of the assigned addresses it stands
only at `UPC = 40` of `OPR = 1`. -/
def Obligations.FinxShowsExpandedKey : Prop :=
  (∀ s : State, encode .finx = .micro 0x280 ∧
    exec .finx s = .next { s with xkv := true, opr := .idle, upc := 0, done := true }) ∧
  (∀ s : State, s.upc.toNat ≤ lastUpc s.opr → (fetch s = some .finx ↔ s.opr = .expandKey ∧ s.upc.toNat = 40))

/-- R77, log 6: a reserved argument is refused by name. -/
def Obligations.ReservedArgumentsRefused : Prop :=
  (∀ (arg : BitVec 6) (s : State), arg.toNat ≤ 3 ∨ 44 ≤ arg.toNat →
    exec (.kx arg) s = .refused .reservedMicroOperation) ∧
  (∀ (arg : BitVec 6) (s : State), 11 ≤ arg.toNat → exec (.ark arg) s = .refused .reservedMicroOperation)

/-! ### Whole-machine rules about all instructions (10_state.md) -/

/-- From the column "written by the core" of R20: which instructions may change `OUT`, `S`, `XK`, `OPR`, `UPC` and `ERRCODE`, and
that none changes an operand register or the model's own fields. The four flags stand in `FlagsSetAndClearedAsTheTable` (O22), the
bytes of `XK` that `KX` writes in `KxComputesOneWord` (O13). -/
def Obligations.OnlyTheNamedInstructionsWrite : Prop :=
  ∀ (i : Instr) (s t : State), exec i s = .next t →
    (t.key = s.key ∧ t.block = s.block ∧ t.keylen = s.keylen ∧ t.blklen = s.blklen) ∧
    (t.pending = s.pending ∧ t.reads = s.reads ∧ t.sched = s.sched ∧ t.turn = s.turn) ∧
    (t.out ≠ s.out → i = .fin) ∧
    (t.st ≠ s.st → i = .encryptBlock ∨ i = .decryptBlock ∨ (∃ r, i = .ark r) ∨ i = .sb ∨ i = .sr ∨ i = .mc ∨
      i = .isb ∨ i = .isr ∨ i = .imc ∨ i = .fin) ∧
    (t.xk ≠ s.xk → i = .expandKey ∨ i = .encryptBlock ∨ i = .decryptBlock ∨ (∃ a, i = .kx a) ∨ i = .fin) ∧
    (t.opr ≠ s.opr → i = .expandKey ∨ i = .encryptBlock ∨ i = .decryptBlock ∨ i = .fin ∨ i = .finx) ∧
    (t.upc ≠ s.upc → i ≠ .nop) ∧
    (t.errcode ≠ s.errcode → i = .expandKey ∨ i = .encryptBlock ∨ i = .decryptBlock)

/-- The table of R29: what sets and what clears each flag. -/
def Obligations.FlagsSetAndClearedAsTheTable : Prop :=
  ∀ (i : Instr) (s t : State), exec i s = .next t →
    (s.done = false → t.done = true → i = .fin ∨ i = .finx) ∧
    (s.done = true → t.done = false → i = .expandKey ∨ i = .encryptBlock ∨ i = .decryptBlock) ∧
    (s.err = false → t.err = true → (i = .encryptBlock ∨ i = .decryptBlock) ∧ t.opr = s.opr) ∧
    (s.err = true → t.err = false → (i = .expandKey ∨ i = .encryptBlock ∨ i = .decryptBlock) ∧ t.opr ≠ .idle) ∧
    (s.xkv = false → t.xkv = true → i = .finx) ∧
    (s.xkv = true → t.xkv = false → (i = .expandKey ∨ i = .encryptBlock ∨ i = .decryptBlock) ∧ t.opr ≠ .idle) ∧
    (s.outv = false → t.outv = true → i = .fin) ∧
    (s.outv = true → t.outv = false → (i = .encryptBlock ∨ i = .decryptBlock) ∧ t.opr ≠ .idle)

/-- R28: how `UPC` moves in the core steps of a state that meets the invariants: one up without overflow, or to 0 at the end. -/
def Obligations.UpcCountsWithoutOverflow : Prop :=
  ∀ s : State, s.ControlInv → busy s = true →
    ∃ t, coreStep s = .next t ∧
      (s.upc.toNat < lastUpc s.opr → t.upc.toNat = s.upc.toNat + 1 ∧ t.opr = s.opr) ∧
      (s.upc.toNat = lastUpc s.opr → t.upc = 0 ∧ t.opr = .idle ∧ t.done = true)

/-- R158: no micro-operation reads an operand register: with other operands the step is the same but for them. -/
def Obligations.MicroOperationsReadNoOperand : Prop :=
  ∀ (i : Instr) (s t : State) (k b : Block) (kl bl : Byte), i.isCommand = false → exec i s = .next t →
    exec i { s with key := k, block := b, keylen := kl, blklen := bl } =
      .next { t with key := k, block := b, keylen := kl, blklen := bl }

/-- R125: after `KX 43` no core step but `FIN` changes the expanded key of the operation. -/
def Obligations.ExpandedKeyImmutableAfterConstruction : Prop :=
  ∀ s t : State, busy s = true → 40 ≤ s.upc.toNat → coreStep s = .next t → t.xk = s.xk ∨ fetch s = some .fin

/-! ### The port (20_memory.md) -/

/-- R53: the map of the host's reads, address by address, and that a read changes nothing of the core. -/
def Obligations.HostReadMap : Prop :=
  ∀ s : State,
    (∀ a : Byte, hostAccess (.read a) s = .next { s with reads := s.reads ++ [(a, memRead a s)] }) ∧
    memRead 0x00 s = 0x00 ∧ memRead 0x02 s = s.errcode ∧ memRead 0x03 s = s.keylen ∧ memRead 0x04 s = s.blklen ∧
    (∀ i : Fin 16, memRead (BitVec.ofNat 8 (0x10 + i.val)) s = s.key[i.val]) ∧
    (∀ i : Fin 16, memRead (BitVec.ofNat 8 (0x20 + i.val)) s = s.block[i.val]) ∧
    (∀ i : Fin 16, memRead (BitVec.ofNat 8 (0x30 + i.val)) s = if s.outv then s.out[i.val] else 0x00) ∧
    (∀ k : Fin 176, memRead (BitVec.ofNat 8 (0x40 + k.val)) s = if s.xkv then s.xk[k.val] else 0x00) ∧
    (∀ a : Byte, (0x05 ≤ a.toNat ∧ a.toNat ≤ 0x0F) ∨ 0xF0 ≤ a.toNat → memRead a s = 0x00) ∧
    (∀ n : Fin 8, (memRead 0x01 s).getLsbD n.val =
      match n.val with
      | 0 => decide (s.opr ≠ .idle)
      | 1 => s.done
      | 2 => s.err
      | 3 => s.xkv
      | 4 => s.outv
      | _ => false)

/-- R54: the map of the host's writes, in every state, busy or idle. -/
def Obligations.HostWriteMap : Prop :=
  ∀ (v : Byte) (s : State),
    hostAccess (.write 0x00 v) s = command v s ∧
    hostAccess (.write 0x03 v) s = .next { s with keylen := v } ∧
    hostAccess (.write 0x04 v) s = .next { s with blklen := v } ∧
    (∀ i : Fin 16, hostAccess (.write (BitVec.ofNat 8 (0x10 + i.val)) v) s = .next { s with key := s.key.set i.val v }) ∧
    (∀ i : Fin 16, hostAccess (.write (BitVec.ofNat 8 (0x20 + i.val)) v) s =
      .next { s with block := s.block.set i.val v }) ∧
    (∀ a : Byte, (a.toNat = 0x01 ∨ a.toNat = 0x02 ∨ (0x05 ≤ a.toNat ∧ a.toNat ≤ 0x0F) ∨ 0x30 ≤ a.toNat) →
      hostAccess (.write a v) s = .next s)

/-- R51: what is written to an operand register is read back, and no other address reads differently after it. -/
def Obligations.WrittenBytesReadBack : Prop :=
  ∀ (a v : Byte) (s : State), a ≠ 0x00 →
    ((a.toNat = 0x03 ∨ a.toNat = 0x04 ∨ (0x10 ≤ a.toNat ∧ a.toNat ≤ 0x2F)) → memRead a (writeRegister a v s) = v) ∧
    (∀ b : Byte, b ≠ a → memRead b (writeRegister a v s) = memRead b s)

/-- R36: hidden state stays hidden: of two states the host cannot tell apart, any host access makes two it cannot tell apart. -/
def Obligations.HiddenStateStaysHidden : Prop :=
  ∀ (a : HostAccess) (s t : State), SameVisible s t →
    (∀ b : Byte, memRead b s = memRead b t) ∧
    ∃ s' t', hostAccess a s = .next s' ∧ hostAccess a t = .next t' ∧ SameVisible s' t'

/-! ### Reset and the step (70_reset_and_hazards.md, 20_memory.md R60) -/

/-- R35: every piece of the core's state is zero after reset, and every address of the port reads 0x00. -/
def Obligations.ResetStateIsAllZero : Prop :=
  (∀ k : Fin 16, State.reset.key[k.val] = 0x00 ∧ State.reset.block[k.val] = 0x00 ∧ State.reset.st[k.val] = 0x00 ∧
    State.reset.out[k.val] = 0x00) ∧
  (∀ k : Fin 176, State.reset.xk[k.val] = 0x00) ∧
  State.reset.keylen = 0x00 ∧ State.reset.blklen = 0x00 ∧ State.reset.opr = .idle ∧ State.reset.upc = 0 ∧
  State.reset.done = false ∧ State.reset.err = false ∧ State.reset.xkv = false ∧ State.reset.outv = false ∧
  State.reset.errcode = 0x00 ∧
  (∀ a : Byte, memRead a State.reset = 0x00)

/-- R200, R201: reset from any state, busy or idle, gives the reset state of the core. That the model's own fields stay is no rule
of the spec but the model's choice (log 12, DESIGN CHOICE). -/
def Obligations.ResetAbandonsEverything : Prop :=
  ∀ s : State,
    hostAccess .reset s =
      .next { State.reset with pending := s.pending, reads := s.reads, sched := s.sched, turn := s.turn }

/-- A step runs the decoded instruction: the host's pending write to `CMD`, alone or first in the order. -/
def Obligations.StepRunsPendingCommand : Prop :=
  ∀ (s : State) (v : Byte) (rest : List HostAccess) (i : Instr),
    s.pending = .write 0x00 v :: rest → decodeCommand v = .ok i →
    (s.opr = .idle → step s = exec i { s with pending := rest }) ∧
    (∀ q, s.opr ≠ .idle → s.sched = .host :: q → step s = exec i { s with pending := rest, sched := q })

/-- A step runs the decoded instruction: the micro-operation at `(OPR, UPC)`, alone or first in the order. -/
def Obligations.StepRunsFetchedMicroOperation : Prop :=
  ∀ (s : State) (w : BitVec 10) (i : Instr),
    s.opr ≠ .idle → microWord s.opr s.upc = some w → decodeMicro w = .ok i →
    (s.pending = [] → step s = exec i s) ∧
    (∀ a rest q, s.pending = a :: rest → s.sched = .core :: q → step s = exec i { s with sched := q })

/-- Where the order is open the step follows the free value, whatever it is, and counts the choice (log 1). -/
def Obligations.StepFollowsTheFreeChoice : Prop :=
  ∀ (s : State) (a : HostAccess) (rest : List HostAccess), s.opr ≠ .idle → s.pending = a :: rest → s.sched = [] →
    step s =
      if Config.coreMovesNext s.turn = true then coreStep { s with turn := s.turn + 1 }
      else hostAccess a { s with pending := rest, turn := s.turn + 1 }

/-- The word of any legal instruction placed in any state is what the next step runs: a command's byte on the very state it was
placed in, a micro-operation's word `w` on that state with `OPR` and `UPC` at the place `placeOf` finds, which holds `w`. How a word
is placed is the model's choice (log 4), and so is reading ten bits from sixteen with zeros above them (log 13). -/
def Obligations.PlacedWordIsRunNext : Prop :=
  ∀ (i : Instr) (s : State), i.wf = true →
    (∀ v : BitVec 8, encode i = .command v → step (s.withFetchWord 8 v.toNat) = exec i s) ∧
    (∀ w : BitVec 10, encode i = .micro w →
      ∃ op upc, placeOf w = some (op, upc) ∧ op ≠ .idle ∧ microWord op upc = some w ∧
        step (s.withFetchWord 16 w.toNat) = exec i { s with opr := op, upc := upc })

/-- R60: every step that changes anything is one move of the order: the host's oldest access, or a core step of a busy core. -/
def Obligations.StepIsOneMove : Prop :=
  ∀ s t : State, step s = .next t →
    (t = s ∧ s.opr = .idle ∧ s.pending = []) ∨
    (∃ q n, s.opr ≠ .idle ∧ makeMove .core { s with sched := q, turn := n } = .next t) ∨
    (∃ a rest q n, s.pending = a :: rest ∧
      makeMove (.host a) { s with pending := rest, sched := q, turn := n } = .next t)

/-- R206: no hang: every state has a next state; an idle core with no access pending keeps its state (log 2). -/
def Obligations.EveryStateHasANextState : Prop :=
  (∀ s : State, ∃ t, step s = .next t) ∧
  (∀ s : State, s.opr = .idle → s.pending = [] → step s = .next s)

/-! ### Invariants (10_state.md R37) -/

/-- R37 at reset. -/
def Obligations.InvariantsHoldAtReset : Prop := State.reset.Inv

/-- R37: every step keeps the invariants, items 1 to 8. -/
def Obligations.InvariantsKeptByEveryStep : Prop :=
  ∀ s t : State, s.Inv → step s = .next t → t.Inv

/-! ### Tables and field (40_constant_tables.md, 41_galois.md) -/

/-- R92: the two substitution tables are mutual inverses over all 256 byte values. -/
def Obligations.SubstitutionTablesAreInverse : Prop :=
  ∀ b : Byte, inverseSubstitute (substitute b) = b ∧ substitute (inverseSubstitute b) = b

/-- R91: every entry of `SBOX` is the affine image of the multiplicative inverse in the field. -/
def Obligations.SboxIsAffineOfInverse : Prop :=
  ∀ a t : Byte, (a = 0x00 ∧ t = 0x00) ∨ gmul a t = 0x01 →
    substitute a =
      t ^^^ t.rotateLeft 1 ^^^ t.rotateLeft 2 ^^^ t.rotateLeft 3 ^^^ t.rotateLeft 4 ^^^ 0x63

/-- R93: the round constants 1 to 10 are the successive powers of 0x02. -/
def Obligations.RoundConstantsArePowers : Prop :=
  roundConstant 1 = 0x01 ∧
  ∀ j : Fin 9, roundConstant ⟨j.val + 2, by omega⟩ = gmul (roundConstant ⟨j.val + 1, by omega⟩) 0x02

/-- R102: the laws of the multiplier the source states, and those derived from the algorithm. -/
def Obligations.MultiplierLaws : Prop :=
  (∀ a b : Byte, gmul a b = gmul b a) ∧
  (∀ a : Byte, gmul a 0x01 = a ∧ gmul a 0x00 = 0x00 ∧ gmul 0x00 a = 0x00) ∧
  (∀ a b c : Byte, gmul a (b ^^^ c) = gmul a b ^^^ gmul a c) ∧
  (∀ a b c : Byte, gmul (gmul a b) c = gmul a (gmul b c)) ∧
  (∀ a : Byte, a ≠ 0x00 → ∃ t, gmul a t = 0x01 ∧ ∀ u, gmul a u = 0x01 → u = t)

/-- R103, R105: `xtime` is the product by 0x02, and the six constant multipliers in terms of it. -/
def Obligations.ConstantMultipliersByXtime : Prop :=
  ∀ a : Byte,
    xtime a = gmul a 0x02 ∧
    mul2 a = xtime a ∧
    mul3 a = xtime a ^^^ a ∧
    mul9 a = xtime (xtime (xtime a)) ^^^ a ∧
    mulB a = xtime (xtime (xtime a)) ^^^ xtime a ^^^ a ∧
    mulD a = xtime (xtime (xtime a)) ^^^ xtime (xtime a) ^^^ a ∧
    mulE a = xtime (xtime (xtime a)) ^^^ xtime (xtime a) ^^^ xtime a

/-! ### Key schedule (42_key_schedule.md) -/

/-- R120: the expansion: the key verbatim in the first sixteen bytes, and each later word from the word before it and the word
four back. -/
def Obligations.ExpansionRecurrence : Prop :=
  ∀ k : Block,
    (∀ i : Fin 16, (expand k)[i.val] = k[i.val]) ∧
    (∀ n : Fin 40, ∀ j : Fin 4,
      (expand k)[4 * (n.val + 4) + j.val] = (expand k)[4 * n.val + j.val] ^^^
        (if (n.val + 4) % 4 = 0 then
          (if j.val = 0 then
            substitute (expand k)[4 * (n.val + 3) + 1] ^^^ roundConstant ⟨(n.val + 4) / 4, by omega⟩
          else substitute (expand k)[4 * (n.val + 3) + (j.val + 1) % 4])
        else (expand k)[4 * (n.val + 3) + j.val]))

/-- R124: the forty steps `KX 4` to `KX 43` leave the expansion of round key 0 in `XK`, whatever the other bytes were. -/
def Obligations.FortyStepsExpandTheKey : Prop :=
  ∀ s : State, busy s = true → s.upc = 0 →
    makeMoves (coreSteps 40) s = .next { s with xk := expand (roundKey 0 s.xk), upc := 40 }

/-! ### Round transforms (43_round_transforms.md) -/

/-- R137: the inverse pairs. -/
def Obligations.TransformsAreInversePairs : Prop :=
  (∀ s : Block, invSubBytes (subBytes s) = s ∧ subBytes (invSubBytes s) = s) ∧
  (∀ s : Block, invShiftRows (shiftRows s) = s ∧ shiftRows (invShiftRows s) = s) ∧
  (∀ s : Block, invMixColumns (mixColumns s) = s ∧ mixColumns (invMixColumns s) = s) ∧
  (∀ (s : Block) (xk : ExpandedKey) (r : Fin 11), addRoundKey (addRoundKey s xk r) xk r = s)

/-- R134: `MC` and, with it, `IMC` are linear, and leave a column of four equal bytes as it is. -/
def Obligations.MixColumnsLinear : Prop :=
  (∀ a b : Block, mixColumns (xorBlock a b) = xorBlock (mixColumns a) (mixColumns b)) ∧
  (∀ a b : Block, invMixColumns (xorBlock a b) = xorBlock (invMixColumns a) (invMixColumns b)) ∧
  (∀ v : Byte, mixColumn (Vector.replicate 4 v) = Vector.replicate 4 v ∧
    invMixColumn (Vector.replicate 4 v) = Vector.replicate 4 v)

/-- R138: `SB` and `SR` commute, and so do `ISB` and `ISR`. -/
def Obligations.SubstitutionAndRotationCommute : Prop :=
  (∀ s : Block, shiftRows (subBytes s) = subBytes (shiftRows s)) ∧
  (∀ s : Block, invShiftRows (invSubBytes s) = invSubBytes (invShiftRows s))

/-! ### What a command computes (44_block_cipher.md sections 1 and 4) -/

/-- R152: decryption undoes encryption, and encryption decryption, for every block and key. -/
def Obligations.DecryptUndoesEncrypt : Prop :=
  ∀ p k : Block, decrypt (encrypt p k) k = p ∧ encrypt (decrypt p k) k = p

/-- R168: an accepted `EXPAND_KEY` takes exactly 41 core steps and a block operation exactly 81, whatever host accesses but reset
are interleaved: busy until then, idle and done after. -/
def Obligations.OperationsEndInExactlyTheirSteps : Prop :=
  ∀ (s : State) (ms : List Move), s.opr ≠ .idle → s.upc = 0 → NoReset ms →
    (coreMoves ms ≤ lastUpc s.opr → ∃ t, makeMoves ms s = .next t ∧ t.opr = s.opr ∧ t.upc.toNat = coreMoves ms) ∧
    (coreMoves ms = lastUpc s.opr →
      ∃ t, makeMoves (ms ++ [.core]) s = .next t ∧ t.opr = .idle ∧ t.upc = 0 ∧ t.done = true)

/-- R165: an accepted `ENCRYPT_BLOCK` computes `encrypt`, after exactly 81 core steps, with any host accesses but reset
interleaved. -/
def Obligations.EncryptBlockComputesEncrypt : Prop :=
  ∀ (s u : State) (ms : List Move), s.opr = .idle → s.keylen = 16 → s.blklen = 16 →
    exec .encryptBlock s = .next u → NoReset ms → coreMoves ms = 80 →
    ∃ t, makeMoves (ms ++ [.core]) u = .next t ∧
      t.out = encrypt s.block s.key ∧ t.outv = true ∧ t.done = true ∧ t.err = false ∧ t.errcode = 0x00 ∧
      t.xkv = false ∧ t.opr = .idle ∧ t.upc = 0 ∧ t.st = Vector.replicate 16 0 ∧ t.xk = Vector.replicate 176 0 ∧
      t.key = (hostWritesOnly ms u).key ∧ t.block = (hostWritesOnly ms u).block ∧
      t.keylen = (hostWritesOnly ms u).keylen ∧ t.blklen = (hostWritesOnly ms u).blklen

/-- R166: the same for `DECRYPT_BLOCK` and `decrypt`. -/
def Obligations.DecryptBlockComputesDecrypt : Prop :=
  ∀ (s u : State) (ms : List Move), s.opr = .idle → s.keylen = 16 → s.blklen = 16 →
    exec .decryptBlock s = .next u → NoReset ms → coreMoves ms = 80 →
    ∃ t, makeMoves (ms ++ [.core]) u = .next t ∧
      t.out = decrypt s.block s.key ∧ t.outv = true ∧ t.done = true ∧ t.err = false ∧ t.errcode = 0x00 ∧
      t.xkv = false ∧ t.opr = .idle ∧ t.upc = 0 ∧ t.st = Vector.replicate 16 0 ∧ t.xk = Vector.replicate 176 0 ∧
      t.key = (hostWritesOnly ms u).key ∧ t.block = (hostWritesOnly ms u).block ∧
      t.keylen = (hostWritesOnly ms u).keylen ∧ t.blklen = (hostWritesOnly ms u).blklen

/-- R167: an accepted `EXPAND_KEY` leaves the expansion of the key in `XK` after exactly 41 core steps, `S`, `OUT` and `OUTV` as
they were, with any host accesses but reset interleaved. -/
def Obligations.ExpandKeyComputesExpand : Prop :=
  ∀ (s u : State) (ms : List Move), s.opr = .idle →
    exec .expandKey s = .next u → NoReset ms → coreMoves ms = 40 →
    ∃ t, makeMoves (ms ++ [.core]) u = .next t ∧
      t.xk = expand s.key ∧ t.xkv = true ∧ t.done = true ∧ t.err = false ∧ t.errcode = 0x00 ∧
      t.opr = .idle ∧ t.upc = 0 ∧ t.st = s.st ∧ t.out = s.out ∧ t.outv = s.outv

/-- R169: two cores with the same key and block, whatever else they hold, give the same result of the same command. -/
def Obligations.CommandsAreIndependent : Prop :=
  ∀ (s s' u u' : State) (i : Instr), (i = .encryptBlock ∨ i = .decryptBlock) →
    s.opr = .idle → s'.opr = .idle → s.keylen = 16 → s.blklen = 16 → s'.keylen = 16 → s'.blklen = 16 →
    s.key = s'.key → s.block = s'.block → exec i s = .next u → exec i s' = .next u' →
    ∃ t t', makeMoves (coreSteps 81) u = .next t ∧ makeMoves (coreSteps 81) u' = .next t' ∧ t.out = t'.out

/-- R203, R171, R80: from any idle state, LOADKEY, LOADBLK, ENCRYPT_BLOCK, the core's 81 steps and READOUT give the host the
sixteen bytes of `encrypt`, in order. -/
def Obligations.EncryptThroughThePort : Prop :=
  ∀ (s : State) (k p : Block), s.opr = .idle →
    ∃ t, makeMoves
        (hostMoves (loadKeyProgram k ++ loadBlkProgram p ++ commandProgram 0x02) ++ coreSteps 81 ++
          hostMoves readOutProgram) s = .next t ∧
      t.reads = s.reads ++ (List.finRange 16).map fun i => (BitVec.ofNat 8 (0x30 + i.val), (encrypt p k)[i.val])

/-! ### Several cores (60_exceptions.md R190) -/

/-- R190: a transition of one instance is its own step alone, and leaves every other instance as it was. -/
def Obligations.InstancesShareNothing : Prop :=
  ∀ (n : Nat) (k : Fin n) (chip : Vector State n),
    ∃ chip', stepInstance k chip = .next chip' ∧ step chip[k.val] = .next chip'[k.val] ∧
      ∀ j : Fin n, j ≠ k → chip'[j.val] = chip[j.val]
end

