-- ==== Sys2Proof/Laws/Decode.lean ====
section
/-! SUPPORT. The fields of a word made of its fields. -/

namespace Sys2Proof

@[simp] theorem microUopc_append (u : BitVec 4) (a : BitVec 6) : microUopc (u ++ a) = u := by
  unfold microUopc
  ext i hi
  rw [BitVec.getElem_extractLsb', BitVec.getLsbD_append]
  simp [BitVec.getLsbD_eq_getElem hi]

@[simp] theorem microArg_append (u : BitVec 4) (a : BitVec 6) : microArg (u ++ a) = a := by
  unfold microArg
  ext i hi
  rw [BitVec.getElem_extractLsb', BitVec.getLsbD_append]
  simp [hi]

/-- A micro-operation word is its two fields put together again. -/
theorem microUopc_append_microArg (w : BitVec 10) : microUopc w ++ microArg w = w := by
  unfold microUopc microArg
  ext i hi
  rw [BitVec.getElem_append]
  split
  · rw [BitVec.getElem_extractLsb', Nat.zero_add, BitVec.getLsbD_eq_getElem hi]
  · have : 6 + (i - 6) = i := by omega
    rw [BitVec.getElem_extractLsb', this, BitVec.getLsbD_eq_getElem hi]

@[simp] theorem decode_command (v : BitVec 8) : decode (.command v) = decodeCommand v := rfl

@[simp] theorem decode_micro (w : BitVec 10) : decode (.micro w) = decodeMicro w := rfl

end Sys2Proof
end

