-- ==== Sys2Proof/Laws/Operands.lean ====
section
/-! SUPPORT. What each byte of an operand view, of a run of bytes written and of a transformed block is. -/

namespace Sys2Proof.Machine

@[simp] theorem getElem_xkWord (i : Fin 44) (xk : ExpandedKey) (j : Nat) (h : j < 4) :
    (xkWord i xk)[j] = xk[4 * i.val + j] := by simp [xkWord]

@[simp] theorem getElem_roundKey (r : Fin 11) (xk : ExpandedKey) (k : Nat) (h : k < 16) :
    (roundKey r xk)[k] = xk[16 * r.val + k] := by simp [roundKey]

@[simp] theorem getElem_column (c : Fin 4) (s : Block) (r : Nat) (h : r < 4) :
    (column c s)[r] = s[4 * c.val + r] := by simp [column]

/-- The key's bytes at offsets 0..15, every other byte as before. -/
theorem getElem_loadKey (key : Block) (xk : ExpandedKey) (k : Nat) (h : k < 176) :
    (loadKey key xk)[k] = if h16 : k < 16 then key[k] else xk[k] := by simp [loadKey]

/-- The word's bytes at its four offsets, every other byte as before. -/
theorem getElem_setXkWord (i : Fin 44) (w : Word) (xk : ExpandedKey) (k : Nat) (h : k < 176) :
    (setXkWord i w xk)[k] = if k / 4 = i.val then w[k % 4] else xk[k] := by
  obtain ⟨q, r, hr, rfl⟩ : ∃ q r, r < 4 ∧ k = 4 * q + r := ⟨k / 4, k % 4, by omega, by omega⟩
  have hq : (4 * q + r) / 4 = q := by omega
  have hm : (4 * q + r) % 4 = r := by omega
  simp only [setXkWord, Vector.getElem_set, hq, hm]
  by_cases e : q = i.val
  · subst e
    match r, hr with
    | 0, _ => simp
    | 1, _ => simp
    | 2, _ => simp
    | 3, _ => simp
  · rw [if_neg (by omega), if_neg (by omega), if_neg (by omega), if_neg (by omega), if_neg e]

/-- Round key 0 right after a key is loaded is that key. -/
@[simp] theorem roundKey_zero_loadKey (key : Block) (xk : ExpandedKey) : roundKey 0 (loadKey key xk) = key := by
  ext k hk
  have h0 : ((0 : Fin 11) : Nat) = 0 := rfl
  simp only [getElem_roundKey, getElem_loadKey, h0, Nat.mul_zero, Nat.zero_add, hk, dite_true]

@[simp] theorem getElem_subBytes (s : Block) (k : Nat) (h : k < 16) : (subBytes s)[k] = substitute s[k] := by
  simp [subBytes]

@[simp] theorem getElem_invSubBytes (s : Block) (k : Nat) (h : k < 16) :
    (invSubBytes s)[k] = inverseSubstitute s[k] := by simp [invSubBytes]

@[simp] theorem getElem_shiftRows (s : Block) (k : Nat) (h : k < 16) :
    (shiftRows s)[k] = s[4 * ((k / 4 + k % 4) % 4) + k % 4] := by simp [shiftRows]

@[simp] theorem getElem_invShiftRows (s : Block) (k : Nat) (h : k < 16) :
    (invShiftRows s)[k] = s[4 * ((k / 4 + 4 - k % 4) % 4) + k % 4] := by simp [invShiftRows]

@[simp] theorem getElem_xorBlock (a b : Block) (k : Nat) (h : k < 16) : (xorBlock a b)[k] = a[k] ^^^ b[k] := by
  simp [xorBlock]

@[simp] theorem getElem_addRoundKey (s : Block) (xk : ExpandedKey) (r : Fin 11) (k : Nat) (h : k < 16) :
    (addRoundKey s xk r)[k] = s[k] ^^^ xk[16 * r.val + k] := by simp [addRoundKey]

/-- A byte of a block with every column transformed is that byte of its column's transform. -/
theorem getElem_mapColumns (f : Word → Word) (s : Block) (k : Nat) (h : k < 16) :
    (mapColumns f s)[k] = (f (column ⟨k / 4, by omega⟩ s))[k % 4] := by simp [mapColumns]

/-- One body of the expansion: its word is word `n` xor `temp`, every other byte as before. -/
theorem getElem_expandWord (n : Fin 40) (xk : ExpandedKey) (k : Nat) (h : k < 176) :
    (expandWord n xk)[k] =
      if k / 4 = n.val + 4 then
        (xorWord (xkWord ⟨n.val, by omega⟩ xk) (scheduleTemp n (xkWord ⟨n.val + 3, by omega⟩ xk)))[k % 4]
      else xk[k] := by
  simp [expandWord, getElem_setXkWord]

end Sys2Proof.Machine
end

