-- ==== Sys2Proof/Laws/PerInstr.lean ====
section
/-! SUPPORT. Per instruction: its encoding matches its row of spec/opcode_table.json under the row's mask. -/

namespace Sys2Proof.Laws.TableMatch

/-- The row's width, mask and match. -/
def row : Instr → Nat × Nat × Nat
  | .nop => (8, 0xFF, 0x00)
  | .expandKey => (8, 0xFF, 0x01)
  | .encryptBlock => (8, 0xFF, 0x02)
  | .decryptBlock => (8, 0xFF, 0x03)
  | .kx _ => (10, 0x3C0, 0x040)
  | .ark _ => (10, 0x3C0, 0x080)
  | .sb => (10, 0x3FF, 0x0C0)
  | .sr => (10, 0x3FF, 0x100)
  | .mc => (10, 0x3FF, 0x140)
  | .isb => (10, 0x3FF, 0x180)
  | .isr => (10, 0x3FF, 0x1C0)
  | .imc => (10, 0x3FF, 0x200)
  | .fin => (10, 0x3FF, 0x240)
  | .finx => (10, 0x3FF, 0x280)

/-- The encoding has the row's width and, under its mask, its match. -/
def Statement (i : Instr) : Prop :=
  (encode i).bits < 2 ^ (row i).1 ∧ (encode i).bits &&& (row i).2.1 = (row i).2.2

theorem nop : Statement .nop := by unfold Statement; decide
theorem expandKey : Statement .expandKey := by unfold Statement; decide
theorem encryptBlock : Statement .encryptBlock := by unfold Statement; decide
theorem decryptBlock : Statement .decryptBlock := by unfold Statement; decide

theorem kx (arg : BitVec 6) : Statement (.kx arg) := by
  unfold Statement
  revert arg
  decide

theorem ark (arg : BitVec 6) : Statement (.ark arg) := by
  unfold Statement
  revert arg
  decide

theorem sb : Statement .sb := by unfold Statement; decide
theorem sr : Statement .sr := by unfold Statement; decide
theorem mc : Statement .mc := by unfold Statement; decide
theorem isb : Statement .isb := by unfold Statement; decide
theorem isr : Statement .isr := by unfold Statement; decide
theorem imc : Statement .imc := by unfold Statement; decide
theorem fin : Statement .fin := by unfold Statement; decide
theorem finx : Statement .finx := by unfold Statement; decide

end Sys2Proof.Laws.TableMatch
end

