-- ==== Sys2Proof/Laws/State.lean ====
section
/-! SUPPORT. Every field after every named update of the state, true by rfl, so that no later proof unfolds a record update. -/

namespace Sys2Proof.Machine

@[simp] theorem clearReport_key (s : State) : (clearReport s).key = s.key := rfl
@[simp] theorem clearReport_block (s : State) : (clearReport s).block = s.block := rfl
@[simp] theorem clearReport_keylen (s : State) : (clearReport s).keylen = s.keylen := rfl
@[simp] theorem clearReport_blklen (s : State) : (clearReport s).blklen = s.blklen := rfl
@[simp] theorem clearReport_st (s : State) : (clearReport s).st = s.st := rfl
@[simp] theorem clearReport_xk (s : State) : (clearReport s).xk = s.xk := rfl
@[simp] theorem clearReport_out (s : State) : (clearReport s).out = s.out := rfl
@[simp] theorem clearReport_opr (s : State) : (clearReport s).opr = s.opr := rfl
@[simp] theorem clearReport_upc (s : State) : (clearReport s).upc = s.upc := rfl
@[simp] theorem clearReport_done (s : State) : (clearReport s).done = false := rfl
@[simp] theorem clearReport_err (s : State) : (clearReport s).err = false := rfl
@[simp] theorem clearReport_xkv (s : State) : (clearReport s).xkv = false := rfl
@[simp] theorem clearReport_outv (s : State) : (clearReport s).outv = s.outv := rfl
@[simp] theorem clearReport_errcode (s : State) : (clearReport s).errcode = errNone := rfl
@[simp] theorem clearReport_pending (s : State) : (clearReport s).pending = s.pending := rfl
@[simp] theorem clearReport_reads (s : State) : (clearReport s).reads = s.reads := rfl
@[simp] theorem clearReport_sched (s : State) : (clearReport s).sched = s.sched := rfl
@[simp] theorem clearReport_turn (s : State) : (clearReport s).turn = s.turn := rfl

@[simp] theorem reportInvalidLength_key (s : State) : (reportInvalidLength s).key = s.key := rfl
@[simp] theorem reportInvalidLength_block (s : State) : (reportInvalidLength s).block = s.block := rfl
@[simp] theorem reportInvalidLength_keylen (s : State) : (reportInvalidLength s).keylen = s.keylen := rfl
@[simp] theorem reportInvalidLength_blklen (s : State) : (reportInvalidLength s).blklen = s.blklen := rfl
@[simp] theorem reportInvalidLength_st (s : State) : (reportInvalidLength s).st = s.st := rfl
@[simp] theorem reportInvalidLength_xk (s : State) : (reportInvalidLength s).xk = s.xk := rfl
@[simp] theorem reportInvalidLength_out (s : State) : (reportInvalidLength s).out = s.out := rfl
@[simp] theorem reportInvalidLength_opr (s : State) : (reportInvalidLength s).opr = s.opr := rfl
@[simp] theorem reportInvalidLength_upc (s : State) : (reportInvalidLength s).upc = s.upc := rfl
@[simp] theorem reportInvalidLength_done (s : State) : (reportInvalidLength s).done = false := rfl
@[simp] theorem reportInvalidLength_err (s : State) : (reportInvalidLength s).err = true := rfl
@[simp] theorem reportInvalidLength_xkv (s : State) : (reportInvalidLength s).xkv = s.xkv := rfl
@[simp] theorem reportInvalidLength_outv (s : State) : (reportInvalidLength s).outv = s.outv := rfl
@[simp] theorem reportInvalidLength_errcode (s : State) : (reportInvalidLength s).errcode = errInvalidInputLength := rfl
@[simp] theorem reportInvalidLength_pending (s : State) : (reportInvalidLength s).pending = s.pending := rfl
@[simp] theorem reportInvalidLength_reads (s : State) : (reportInvalidLength s).reads = s.reads := rfl
@[simp] theorem reportInvalidLength_sched (s : State) : (reportInvalidLength s).sched = s.sched := rfl
@[simp] theorem reportInvalidLength_turn (s : State) : (reportInvalidLength s).turn = s.turn := rfl

@[simp] theorem raiseInvalidInputLength_key (s : State) : (raiseInvalidInputLength s).key = s.key := rfl
@[simp] theorem raiseInvalidInputLength_block (s : State) : (raiseInvalidInputLength s).block = s.block := rfl
@[simp] theorem raiseInvalidInputLength_keylen (s : State) : (raiseInvalidInputLength s).keylen = s.keylen := rfl
@[simp] theorem raiseInvalidInputLength_blklen (s : State) : (raiseInvalidInputLength s).blklen = s.blklen := rfl
@[simp] theorem raiseInvalidInputLength_st (s : State) : (raiseInvalidInputLength s).st = s.st := rfl
@[simp] theorem raiseInvalidInputLength_xk (s : State) : (raiseInvalidInputLength s).xk = s.xk := rfl
@[simp] theorem raiseInvalidInputLength_out (s : State) : (raiseInvalidInputLength s).out = s.out := rfl
@[simp] theorem raiseInvalidInputLength_opr (s : State) : (raiseInvalidInputLength s).opr = s.opr := rfl
@[simp] theorem raiseInvalidInputLength_upc (s : State) : (raiseInvalidInputLength s).upc = s.upc := rfl
@[simp] theorem raiseInvalidInputLength_done (s : State) : (raiseInvalidInputLength s).done = false := rfl
@[simp] theorem raiseInvalidInputLength_err (s : State) : (raiseInvalidInputLength s).err = true := rfl
@[simp] theorem raiseInvalidInputLength_xkv (s : State) : (raiseInvalidInputLength s).xkv = s.xkv := rfl
@[simp] theorem raiseInvalidInputLength_outv (s : State) : (raiseInvalidInputLength s).outv = s.outv := rfl
@[simp] theorem raiseInvalidInputLength_errcode (s : State) : (raiseInvalidInputLength s).errcode = errInvalidInputLength := rfl
@[simp] theorem raiseInvalidInputLength_pending (s : State) : (raiseInvalidInputLength s).pending = s.pending := rfl
@[simp] theorem raiseInvalidInputLength_reads (s : State) : (raiseInvalidInputLength s).reads = s.reads := rfl
@[simp] theorem raiseInvalidInputLength_sched (s : State) : (raiseInvalidInputLength s).sched = s.sched := rfl
@[simp] theorem raiseInvalidInputLength_turn (s : State) : (raiseInvalidInputLength s).turn = s.turn := rfl

@[simp] theorem startOperation_key (op : Operation) (s : State) : (startOperation op s).key = s.key := by simp only [startOperation, clearReport]
@[simp] theorem startOperation_block (op : Operation) (s : State) : (startOperation op s).block = s.block := by simp only [startOperation, clearReport]
@[simp] theorem startOperation_keylen (op : Operation) (s : State) : (startOperation op s).keylen = s.keylen := by simp only [startOperation, clearReport]
@[simp] theorem startOperation_blklen (op : Operation) (s : State) : (startOperation op s).blklen = s.blklen := by simp only [startOperation, clearReport]
@[simp] theorem startOperation_st (op : Operation) (s : State) : (startOperation op s).st = s.st := by simp only [startOperation, clearReport]
@[simp] theorem startOperation_xk (op : Operation) (s : State) : (startOperation op s).xk = loadKey s.key s.xk := by simp only [startOperation, clearReport]
@[simp] theorem startOperation_out (op : Operation) (s : State) : (startOperation op s).out = s.out := by simp only [startOperation, clearReport]
@[simp] theorem startOperation_opr (op : Operation) (s : State) : (startOperation op s).opr = op := by simp only [startOperation, clearReport]
@[simp] theorem startOperation_upc (op : Operation) (s : State) : (startOperation op s).upc = 0 := by simp only [startOperation, clearReport]
@[simp] theorem startOperation_done (op : Operation) (s : State) : (startOperation op s).done = false := by simp only [startOperation, clearReport]
@[simp] theorem startOperation_err (op : Operation) (s : State) : (startOperation op s).err = false := by simp only [startOperation, clearReport]
@[simp] theorem startOperation_xkv (op : Operation) (s : State) : (startOperation op s).xkv = false := by simp only [startOperation, clearReport]
@[simp] theorem startOperation_outv (op : Operation) (s : State) : (startOperation op s).outv = s.outv := by simp only [startOperation, clearReport]
@[simp] theorem startOperation_errcode (op : Operation) (s : State) : (startOperation op s).errcode = errNone := by simp only [startOperation, clearReport]
@[simp] theorem startOperation_pending (op : Operation) (s : State) : (startOperation op s).pending = s.pending := by simp only [startOperation, clearReport]
@[simp] theorem startOperation_reads (op : Operation) (s : State) : (startOperation op s).reads = s.reads := by simp only [startOperation, clearReport]
@[simp] theorem startOperation_sched (op : Operation) (s : State) : (startOperation op s).sched = s.sched := by simp only [startOperation, clearReport]
@[simp] theorem startOperation_turn (op : Operation) (s : State) : (startOperation op s).turn = s.turn := by simp only [startOperation, clearReport]

@[simp] theorem startBlockOperation_key (op : Operation) (s : State) : (startBlockOperation op s).key = s.key := by simp only [startBlockOperation, startOperation, clearReport]
@[simp] theorem startBlockOperation_block (op : Operation) (s : State) : (startBlockOperation op s).block = s.block := by simp only [startBlockOperation, startOperation, clearReport]
@[simp] theorem startBlockOperation_keylen (op : Operation) (s : State) : (startBlockOperation op s).keylen = s.keylen := by simp only [startBlockOperation, startOperation, clearReport]
@[simp] theorem startBlockOperation_blklen (op : Operation) (s : State) : (startBlockOperation op s).blklen = s.blklen := by simp only [startBlockOperation, startOperation, clearReport]
@[simp] theorem startBlockOperation_st (op : Operation) (s : State) : (startBlockOperation op s).st = s.block := by simp only [startBlockOperation, startOperation, clearReport]
@[simp] theorem startBlockOperation_xk (op : Operation) (s : State) : (startBlockOperation op s).xk = loadKey s.key s.xk := by simp only [startBlockOperation, startOperation, clearReport]
@[simp] theorem startBlockOperation_out (op : Operation) (s : State) : (startBlockOperation op s).out = s.out := by simp only [startBlockOperation, startOperation, clearReport]
@[simp] theorem startBlockOperation_opr (op : Operation) (s : State) : (startBlockOperation op s).opr = op := by simp only [startBlockOperation, startOperation, clearReport]
@[simp] theorem startBlockOperation_upc (op : Operation) (s : State) : (startBlockOperation op s).upc = 0 := by simp only [startBlockOperation, startOperation, clearReport]
@[simp] theorem startBlockOperation_done (op : Operation) (s : State) : (startBlockOperation op s).done = false := by simp only [startBlockOperation, startOperation, clearReport]
@[simp] theorem startBlockOperation_err (op : Operation) (s : State) : (startBlockOperation op s).err = false := by simp only [startBlockOperation, startOperation, clearReport]
@[simp] theorem startBlockOperation_xkv (op : Operation) (s : State) : (startBlockOperation op s).xkv = false := by simp only [startBlockOperation, startOperation, clearReport]
@[simp] theorem startBlockOperation_outv (op : Operation) (s : State) : (startBlockOperation op s).outv = false := by simp only [startBlockOperation, startOperation, clearReport]
@[simp] theorem startBlockOperation_errcode (op : Operation) (s : State) : (startBlockOperation op s).errcode = errNone := by simp only [startBlockOperation, startOperation, clearReport]
@[simp] theorem startBlockOperation_pending (op : Operation) (s : State) : (startBlockOperation op s).pending = s.pending := by simp only [startBlockOperation, startOperation, clearReport]
@[simp] theorem startBlockOperation_reads (op : Operation) (s : State) : (startBlockOperation op s).reads = s.reads := by simp only [startBlockOperation, startOperation, clearReport]
@[simp] theorem startBlockOperation_sched (op : Operation) (s : State) : (startBlockOperation op s).sched = s.sched := by simp only [startBlockOperation, startOperation, clearReport]
@[simp] theorem startBlockOperation_turn (op : Operation) (s : State) : (startBlockOperation op s).turn = s.turn := by simp only [startBlockOperation, startOperation, clearReport]

@[simp] theorem advance_key (s : State) : (advance s).key = s.key := rfl
@[simp] theorem advance_block (s : State) : (advance s).block = s.block := rfl
@[simp] theorem advance_keylen (s : State) : (advance s).keylen = s.keylen := rfl
@[simp] theorem advance_blklen (s : State) : (advance s).blklen = s.blklen := rfl
@[simp] theorem advance_st (s : State) : (advance s).st = s.st := rfl
@[simp] theorem advance_xk (s : State) : (advance s).xk = s.xk := rfl
@[simp] theorem advance_out (s : State) : (advance s).out = s.out := rfl
@[simp] theorem advance_opr (s : State) : (advance s).opr = s.opr := rfl
@[simp] theorem advance_upc (s : State) : (advance s).upc = s.upc + 1 := rfl
@[simp] theorem advance_done (s : State) : (advance s).done = s.done := rfl
@[simp] theorem advance_err (s : State) : (advance s).err = s.err := rfl
@[simp] theorem advance_xkv (s : State) : (advance s).xkv = s.xkv := rfl
@[simp] theorem advance_outv (s : State) : (advance s).outv = s.outv := rfl
@[simp] theorem advance_errcode (s : State) : (advance s).errcode = s.errcode := rfl
@[simp] theorem advance_pending (s : State) : (advance s).pending = s.pending := rfl
@[simp] theorem advance_reads (s : State) : (advance s).reads = s.reads := rfl
@[simp] theorem advance_sched (s : State) : (advance s).sched = s.sched := rfl
@[simp] theorem advance_turn (s : State) : (advance s).turn = s.turn := rfl

@[simp] theorem endOperation_key (s : State) : (endOperation s).key = s.key := rfl
@[simp] theorem endOperation_block (s : State) : (endOperation s).block = s.block := rfl
@[simp] theorem endOperation_keylen (s : State) : (endOperation s).keylen = s.keylen := rfl
@[simp] theorem endOperation_blklen (s : State) : (endOperation s).blklen = s.blklen := rfl
@[simp] theorem endOperation_st (s : State) : (endOperation s).st = s.st := rfl
@[simp] theorem endOperation_xk (s : State) : (endOperation s).xk = s.xk := rfl
@[simp] theorem endOperation_out (s : State) : (endOperation s).out = s.out := rfl
@[simp] theorem endOperation_opr (s : State) : (endOperation s).opr = .idle := rfl
@[simp] theorem endOperation_upc (s : State) : (endOperation s).upc = 0 := rfl
@[simp] theorem endOperation_done (s : State) : (endOperation s).done = true := rfl
@[simp] theorem endOperation_err (s : State) : (endOperation s).err = s.err := rfl
@[simp] theorem endOperation_xkv (s : State) : (endOperation s).xkv = s.xkv := rfl
@[simp] theorem endOperation_outv (s : State) : (endOperation s).outv = s.outv := rfl
@[simp] theorem endOperation_errcode (s : State) : (endOperation s).errcode = s.errcode := rfl
@[simp] theorem endOperation_pending (s : State) : (endOperation s).pending = s.pending := rfl
@[simp] theorem endOperation_reads (s : State) : (endOperation s).reads = s.reads := rfl
@[simp] theorem endOperation_sched (s : State) : (endOperation s).sched = s.sched := rfl
@[simp] theorem endOperation_turn (s : State) : (endOperation s).turn = s.turn := rfl

@[simp] theorem hostRead_key (a : Byte) (s : State) : (hostRead a s).key = s.key := rfl
@[simp] theorem hostRead_block (a : Byte) (s : State) : (hostRead a s).block = s.block := rfl
@[simp] theorem hostRead_keylen (a : Byte) (s : State) : (hostRead a s).keylen = s.keylen := rfl
@[simp] theorem hostRead_blklen (a : Byte) (s : State) : (hostRead a s).blklen = s.blklen := rfl
@[simp] theorem hostRead_st (a : Byte) (s : State) : (hostRead a s).st = s.st := rfl
@[simp] theorem hostRead_xk (a : Byte) (s : State) : (hostRead a s).xk = s.xk := rfl
@[simp] theorem hostRead_out (a : Byte) (s : State) : (hostRead a s).out = s.out := rfl
@[simp] theorem hostRead_opr (a : Byte) (s : State) : (hostRead a s).opr = s.opr := rfl
@[simp] theorem hostRead_upc (a : Byte) (s : State) : (hostRead a s).upc = s.upc := rfl
@[simp] theorem hostRead_done (a : Byte) (s : State) : (hostRead a s).done = s.done := rfl
@[simp] theorem hostRead_err (a : Byte) (s : State) : (hostRead a s).err = s.err := rfl
@[simp] theorem hostRead_xkv (a : Byte) (s : State) : (hostRead a s).xkv = s.xkv := rfl
@[simp] theorem hostRead_outv (a : Byte) (s : State) : (hostRead a s).outv = s.outv := rfl
@[simp] theorem hostRead_errcode (a : Byte) (s : State) : (hostRead a s).errcode = s.errcode := rfl
@[simp] theorem hostRead_pending (a : Byte) (s : State) : (hostRead a s).pending = s.pending := rfl
@[simp] theorem hostRead_reads (a : Byte) (s : State) : (hostRead a s).reads = s.reads ++ [(a, memRead a s)] := rfl
@[simp] theorem hostRead_sched (a : Byte) (s : State) : (hostRead a s).sched = s.sched := rfl
@[simp] theorem hostRead_turn (a : Byte) (s : State) : (hostRead a s).turn = s.turn := rfl

@[simp] theorem resetCore_key (s : State) : (resetCore s).key = Vector.replicate 16 0 := rfl
@[simp] theorem resetCore_block (s : State) : (resetCore s).block = Vector.replicate 16 0 := rfl
@[simp] theorem resetCore_keylen (s : State) : (resetCore s).keylen = 0 := rfl
@[simp] theorem resetCore_blklen (s : State) : (resetCore s).blklen = 0 := rfl
@[simp] theorem resetCore_st (s : State) : (resetCore s).st = Vector.replicate 16 0 := rfl
@[simp] theorem resetCore_xk (s : State) : (resetCore s).xk = Vector.replicate 176 0 := rfl
@[simp] theorem resetCore_out (s : State) : (resetCore s).out = Vector.replicate 16 0 := rfl
@[simp] theorem resetCore_opr (s : State) : (resetCore s).opr = .idle := rfl
@[simp] theorem resetCore_upc (s : State) : (resetCore s).upc = 0 := rfl
@[simp] theorem resetCore_done (s : State) : (resetCore s).done = false := rfl
@[simp] theorem resetCore_err (s : State) : (resetCore s).err = false := rfl
@[simp] theorem resetCore_xkv (s : State) : (resetCore s).xkv = false := rfl
@[simp] theorem resetCore_outv (s : State) : (resetCore s).outv = false := rfl
@[simp] theorem resetCore_errcode (s : State) : (resetCore s).errcode = 0 := rfl
@[simp] theorem resetCore_pending (s : State) : (resetCore s).pending = s.pending := rfl
@[simp] theorem resetCore_reads (s : State) : (resetCore s).reads = s.reads := rfl
@[simp] theorem resetCore_sched (s : State) : (resetCore s).sched = s.sched := rfl
@[simp] theorem resetCore_turn (s : State) : (resetCore s).turn = s.turn := rfl

end Sys2Proof.Machine
end

