-- ==== Sys2Proof/Laws/Port.lean ====
section
/-! SUPPORT. What each shared operation answers, said once. -/

namespace Sys2Proof.Machine

theorem busy_eq_false (s : State) : busy s = false ↔ s.opr = .idle := by
  cases h : s.opr <;> simp [busy, h]

theorem busy_eq_true (s : State) : busy s = true ↔ s.opr ≠ .idle := by
  cases h : s.opr <;> simp [busy, h]

/-- A transform always answers the transformed state, `UPC` advanced. -/
@[simp] theorem transformState_eq (f : Block → Block) (s : State) :
    transformState f s = .next { s with st := f s.st, upc := s.upc + 1 } := rfl

/-- A block operation commanded answers one of three next states. -/
theorem commandBlockOperation_cases (op : Operation) (s : State) :
    (busy s = true ∧ commandBlockOperation op s = .next s) ∨
    (busy s = false ∧ lengthsValid s = true ∧ commandBlockOperation op s = .next (startBlockOperation op s)) ∨
    (busy s = false ∧ lengthsValid s = false ∧ commandBlockOperation op s = .next (raiseInvalidInputLength s)) := by
  cases hb : busy s <;> cases hl : lengthsValid s <;> simp [commandBlockOperation, hb, hl]

/-- A register write changes the four operand registers only. -/
theorem writeRegister_frame (a v : Byte) (s : State) :
    writeRegister a v s =
      { s with key := (writeRegister a v s).key, block := (writeRegister a v s).block,
               keylen := (writeRegister a v s).keylen, blklen := (writeRegister a v s).blklen } := by
  unfold writeRegister
  dsimp only
  split
  · rfl
  · split
    · rfl
    · split
      · rfl
      · split <;> rfl

/-- A write to any address but `CMD` is a register write. -/
theorem hostWrite_of_ne (a v : Byte) (s : State) (h : a ≠ 0x00) : hostWrite a v s = .next (writeRegister a v s) :=
  if_neg h

/-- A write to `CMD` is a command. -/
theorem hostWrite_cmd (v : Byte) (s : State) : hostWrite 0x00 v s = command v s := if_pos rfl

/-- A command whose byte decodes runs its instruction. -/
theorem command_of_decode (v : Byte) (s : State) (i : Instr) (h : decodeCommand v = .ok i) : command v s = exec i s := by
  simp [command, h]

/-- Bit 0 of the byte read at `STATUS` is `BUSY`. -/
theorem memRead_status_busy (s : State) : (memRead statusAddress s).getLsbD 0 = busy s := by
  have h : memRead statusAddress s = statusByte s := rfl
  rw [h]
  unfold statusByte flagBit
  rw [BitVec.getLsbD_append]
  simp

/-- `WAIT` while busy stays pending. -/
theorem hostWait_busy (s : State) (h : busy s = true) :
    hostWait s = { hostRead statusAddress s with pending := .wait :: s.pending } :=
  if_pos ((memRead_status_busy s).trans h)

/-- `WAIT` while idle is one read of `STATUS`. -/
theorem hostWait_idle (s : State) (h : busy s = false) : hostWait s = hostRead statusAddress s :=
  if_neg (by rw [memRead_status_busy, h]; decide)

end Sys2Proof.Machine
end

