-- ==== Sys2Proof/Laws/Step.lean ====
section
/-! SUPPORT. The step in each of its cases, and a schedule of moves taken apart. -/

namespace Sys2Proof.Machine

theorem step_nothing (s : State) (hp : s.pending = []) (hb : busy s = false) : step s = .next s := by
  simp [step, transition, hp, hb]

theorem step_core_alone (s : State) (hp : s.pending = []) (hb : busy s = true) : step s = coreStep s := by
  simp [step, transition, hp, hb]

theorem step_host_alone (s : State) (a : HostAccess) (rest : List HostAccess) (hp : s.pending = a :: rest)
    (hb : busy s = false) : step s = hostStep a rest s := by
  simp [step, transition, hp, hb]

theorem step_contended (s : State) (a : HostAccess) (rest : List HostAccess) (hp : s.pending = a :: rest)
    (hb : busy s = true) :
    step s = if (chooseAgent s).1 = .core then coreStep (chooseAgent s).2 else hostStep a rest (chooseAgent s).2 := by
  simp only [step, transition, hp, hb]
  split <;> rename_i t he <;> simp [he]

/-- A choice changes the two fields that hold the order of transitions only. -/
theorem chooseAgent_frame (s : State) :
    (chooseAgent s).2 = { s with sched := (chooseAgent s).2.sched, turn := (chooseAgent s).2.turn } := by
  unfold chooseAgent
  split <;> rfl

theorem coreStep_of_fetch (s : State) (i : Instr) (h : fetch s = some i) : coreStep s = exec i s := by
  simp [coreStep, h]

@[simp] theorem makeMoves_nil (s : State) : makeMoves [] s = .next s := rfl

theorem makeMoves_cons_next (m : Move) (ms : List Move) (s t : State) (h : makeMove m s = .next t) :
    makeMoves (m :: ms) s = makeMoves ms t := by
  simp [makeMoves, h]

/-- A schedule in two parts: the second runs from where the first ends. -/
theorem makeMoves_append_next (as bs : List Move) (s t : State) (h : makeMoves as s = .next t) :
    makeMoves (as ++ bs) s = makeMoves bs t := by
  induction as generalizing s with
  | nil =>
    cases h
    rfl
  | cons m ms ih =>
    simp only [List.cons_append, makeMoves] at h ⊢
    cases hm : makeMove m s with
    | next u =>
      rw [hm] at h
      exact ih u h
    | fault r =>
      rw [hm] at h
      exact (nomatch h)
    | refused r =>
      rw [hm] at h
      exact (nomatch h)

end Sys2Proof.Machine
end

