-- ==== Sys2Proof/Tests/Slice0.lean ====
section
/-! SUPPORT. Small tests, each one's expected result from the spec's own vectors, and for every statement with hypotheses a state
and operands that meet them. -/

namespace Sys2Proof.Tests

open Sys2Proof Sys2Proof.Machine

/-! ### Helpers -/

/-- The key of 95_test_vectors.md V1. -/
def key1 : Block := #v[0x00, 0x01, 0x02, 0x03, 0x04, 0x05, 0x06, 0x07, 0x08, 0x09, 0x0a, 0x0b, 0x0c, 0x0d, 0x0e, 0x0f]

/-- The plaintext of V1. -/
def plain1 : Block := #v[0x00, 0x11, 0x22, 0x33, 0x44, 0x55, 0x66, 0x77, 0x88, 0x99, 0xaa, 0xbb, 0xcc, 0xdd, 0xee, 0xff]

/-- The ciphertext of V1. -/
def cipher1 : Block := #v[0x69, 0xc4, 0xe0, 0xd8, 0x6a, 0x7b, 0x04, 0x30, 0xd8, 0xcd, 0xb7, 0x80, 0x70, 0xb4, 0xc5, 0x5a]

/-- Idle, the operands of V1 loaded, both lengths 16. -/
def loaded : State := { State.reset with key := key1, block := plain1, keylen := 0x10, blklen := 0x10 }

/-- In operation `op` at `UPC = n`. -/
def busyAt (op : Operation) (n : BitVec 7) : State := { State.reset with opr := op, upc := n }

/-- A busy state with `S` given and the key of V1 in round key 0. -/
def withS (s : Block) : State :=
  { State.reset with opr := .encryptBlock, upc := 41, st := s, xk := loadKey key1 (Vector.replicate 176 0) }

/-- Rejected: the report of InvalidInputLength stands. -/
def rejected : State := { State.reset with err := true, errcode := 0x01 }

/-- One field of the next state, if there is one. -/
def after {α : Type} (r : Result) (f : State → α) : Option α :=
  match r with
  | .next t => some (f t)
  | .fault _ => none
  | .refused _ => none

/-! ### Well-formedness: each check refuses its ill-formed terms (R76, R77) -/

theorem test_wf_kx_low : Instr.wf (.kx 3) = false := by decide
theorem test_wf_kx_high : Instr.wf (.kx 44) = false := by decide
theorem test_wf_ark_high : Instr.wf (.ark 11) = false := by decide
theorem test_wf_bounds : Instr.wf (.kx 4) && Instr.wf (.kx 43) && Instr.wf (.ark 0) && Instr.wf (.ark 10) = true := by
  decide

/-! ### Decoding, each word written out from R71, R72, R74, R75 -/

theorem test_decode_nop : decodeCommand 0b000000_00 = .ok .nop := by rfl
theorem test_decode_expandKey : decodeCommand 0b000000_01 = .ok .expandKey := by rfl
theorem test_decode_encryptBlock : decodeCommand 0b000000_10 = .ok .encryptBlock := by rfl
theorem test_decode_decryptBlock : decodeCommand 0b000000_11 = .ok .decryptBlock := by rfl
theorem test_decode_kx : decodeMicro 0b0001_100100 = .ok (.kx 36) := by rfl
theorem test_decode_ark : decodeMicro 0b0010_001010 = .ok (.ark 10) := by rfl
theorem test_decode_sb : decodeMicro 0b0011_000000 = .ok .sb := by rfl
theorem test_decode_sr : decodeMicro 0b0100_000000 = .ok .sr := by rfl
theorem test_decode_mc : decodeMicro 0b0101_000000 = .ok .mc := by rfl
theorem test_decode_isb : decodeMicro 0b0110_000000 = .ok .isb := by rfl
theorem test_decode_isr : decodeMicro 0b0111_000000 = .ok .isr := by rfl
theorem test_decode_imc : decodeMicro 0b1000_000000 = .ok .imc := by rfl
theorem test_decode_fin : decodeMicro 0b1001_000000 = .ok .fin := by rfl
theorem test_decode_finx : decodeMicro 0b1010_000000 = .ok .finx := by rfl
theorem test_decode_reserved_command : decodeCommand 0x82 = .error .reservedCommand := by rfl
theorem test_decode_reserved_uopc : decodeMicro 0b1011_000000 = .error .reservedUopc := by rfl
theorem test_decode_reserved_word : decodeMicro 0b0001_000011 = .error .reservedWordIndex := by rfl
theorem test_decode_reserved_round : decodeMicro 0b0010_001011 = .error .reservedRoundNumber := by rfl
theorem test_decode_nonzero_argument : decodeMicro 0b0011_000001 = .error .nonzeroArgument := by rfl

/-! ### Instructions, one step each -/

/-- R154's example: STATUS 0x12 stays. -/
theorem test_nop_keeps_status :
    after (exec .nop { State.reset with outv := true, done := true }) (memRead 0x01) = some 0x12 := by decide

/-- V63, last accepted row with wrong lengths: STATUS 0x01. -/
theorem test_expandKey_ignores_lengths :
    after (exec .expandKey { State.reset with keylen := 0xFF, err := true, errcode := 0x01 }) (memRead 0x01) = some 0x01 := by
  decide

/-- V63: KEYLEN 0x10, BLKLEN 0x0F; H3: OUTV survives the rejection, STATUS 0x14. -/
theorem test_encryptBlock_rejected :
    after (exec .encryptBlock { loaded with blklen := 0x0F, outv := true, done := true })
      (fun t => (memRead 0x01 t, memRead 0x02 t)) = some (0x14, 0x01) := by decide

/-- R156: S and XK take the operands. -/
theorem test_encryptBlock_accepted :
    after (exec .encryptBlock loaded) (fun t => (t.st[1], t.xk[15], t.opr)) = some (0x11, 0x0F, .encryptBlock) := by decide +kernel

/-- V63: KEYLEN 0x11. -/
theorem test_decryptBlock_rejected :
    after (exec .decryptBlock { loaded with keylen := 0x11 }) (fun t => (t.err, t.opr)) = some (true, .idle) := by decide

theorem test_decryptBlock_accepted : after (exec .decryptBlock loaded) (fun t => t.opr) = some .decryptBlock := by decide

/-- R123's example: word 4 of the key of V1 is d6 aa 74 fd. -/
theorem test_kx_four :
    after (exec (.kx 4) (withS plain1)) (fun t => (t.xk[16], t.xk[17], t.xk[18], t.xk[19])) =
      some (0xd6, 0xaa, 0x74, 0xfd) := by decide +kernel

/-- V11: word 40 of the all-zero key's row: previous word 4c664941, word 36 b1d4d8e2, word 40 b4ef5bcb. -/
theorem test_kx_forty :
    after
      (exec (.kx 40)
        { State.reset with
          xk := setXkWord 39 #v[0x4c, 0x66, 0x49, 0x41] (setXkWord 36 #v[0xb1, 0xd4, 0xd8, 0xe2] State.reset.xk) })
      (fun t => (t.xk[160], t.xk[161], t.xk[162], t.xk[163])) = some (0xb4, 0xef, 0x5b, 0xcb) := by decide +kernel

/-- R136's example, first and last byte. -/
theorem test_ark_zero :
    after (exec (.ark 0) (withS plain1)) (fun t => (t.st[1], t.st[15])) = some (0x10, 0xf0) := by decide +kernel

/-- R130's example: byte 1, 0x10, becomes 0xca. -/
theorem test_sb : after (exec .sb (withS (plain1.set 1 0x10))) (fun t => (t.st[0], t.st[1])) = some (0x63, 0xca) := by decide

/-- R131's corner case and V40. -/
theorem test_isb : after (exec .isb (withS (plain1.set 1 0xed))) (fun t => (t.st[0], t.st[1])) = some (0x52, 0x53) := by decide

/-- R132's example. -/
theorem test_sr :
    after (exec .sr (withS key1)) (fun t => (t.st[1], t.st[2], t.st[3], t.st[13])) = some (0x05, 0x0a, 0x0f, 0x01) := by decide

/-- R133's example. -/
theorem test_isr :
    after (exec .isr (withS key1)) (fun t => (t.st[1], t.st[2], t.st[3], t.st[15])) = some (0x0d, 0x0a, 0x07, 0x03) := by decide

/-- V51: the column db 13 53 45 becomes 8e 4d a1 bc. -/
theorem test_mc : mixColumn #v[0xdb, 0x13, 0x53, 0x45] = #v[0x8e, 0x4d, 0xa1, 0xbc] := by decide +kernel

/-- V50: byte 4 of the mixed state of V1's key. -/
theorem test_mc_state : after (exec .mc (withS key1)) (fun t => (t.st[4], t.st[7])) = some (0x06, 0x01) := by decide

/-- V51: the column 8e 4d a1 bc becomes db 13 53 45. -/
theorem test_imc : invMixColumn #v[0x8e, 0x4d, 0xa1, 0xbc] = #v[0xdb, 0x13, 0x53, 0x45] := by decide +kernel

/-- V50: byte 0 and 5 of the inversely mixed state of V1's key. -/
theorem test_imc_state : after (exec .imc (withS key1)) (fun t => (t.st[0], t.st[5])) = some (0x0a, 0x0b) := by decide

/-- R163's example: STATUS 0x12, the result readable, S clear. -/
theorem test_fin :
    after (exec .fin { busyAt .encryptBlock 80 with st := cipher1 }) (fun t => (memRead 0x01 t, memRead 0x30 t, t.st[0])) =
      some (0x12, 0x69, 0x00) := by decide

/-- R164's example: 0x11 becomes 0x1A. -/
theorem test_finx :
    after (exec .finx { busyAt .expandKey 40 with outv := true }) (memRead 0x01) = some 0x1A := by decide

/-! ### Functions, on the spec's vectors -/

/-- V30, a general pair. -/
theorem test_gmul_general : gmul 0x57 0x83 = 0xC1 := by decide
/-- V30, reduction in several iterations. -/
theorem test_gmul_reduces : gmul 0x80 0x80 = 0x9A := by decide
/-- V40. -/
theorem test_substitute : substitute 0x9A = 0xB8 := by decide
/-- V40. -/
theorem test_inverseSubstitute : inverseSubstitute 0xC9 = 0x12 := by decide

/-- V1, the source's known-answer vector. -/
theorem test_encrypt_known_answer : encrypt plain1 key1 = cipher1 := by decide +kernel

/-- V61: a reserved address keeps nothing. -/
theorem test_reserved_address : memRead 0x05 (writeRegister 0x05 0x77 State.reset) = 0x00 := by decide

/-- H1's schedule: of the host's read and the core's step the fixed order takes the host's first. -/
theorem test_step_host_first :
    after (step { busyAt .encryptBlock 3 with pending := [.read 0x01], sched := [.host] })
      (fun t => (t.reads, t.upc)) = some ([(0x01, 0x01)], 3) := by decide

/-- R80: `WAIT` stays pending while busy. -/
theorem test_wait_busy :
    after (step { busyAt .encryptBlock 3 with pending := [.wait], sched := [.host] }) (fun t => t.pending) = some [.wait] := by
  decide

/-- R5: the sizes of the expanded key agree. -/
theorem test_parameters :
    Config.xkBytes = Config.nrk * Config.keyBytes ∧ Config.xkBytes = 4 * Config.nwords ∧ Config.nrk = Config.nr + 1 := by decide

/-! ### Hypotheses met: one theorem per statement that has hypotheses -/

theorem test_hyp_encoded : Instr.wf (.kx 43) = true ∧ Instr.wf (.ark 10) = true ∧ Instr.wf .nop = true := by decide

theorem test_hyp_decoded : decode (.micro 0x06B) = .ok (.kx 43) ∧ decode (.command 0x03) = .ok .decryptBlock := ⟨rfl, rfl⟩

theorem test_hyp_program_word : (0x280 : BitVec 10) ∈ microProgram .expandKey := by decide

theorem test_hyp_busy : busy (busyAt .encryptBlock 79) = true ∧ busy (busyAt .decryptBlock 127) = true := by decide

theorem test_hyp_dropped :
    0x04 ≤ (0x04 : Byte).toNat ∧ 0x04 ≤ (0xFF : Byte).toNat ∧ (busyAt .expandKey 0).opr ≠ .idle := by decide

theorem test_hyp_accepted : loaded.opr = .idle ∧ loaded.keylen = 16 ∧ loaded.blklen = 16 := by decide

theorem test_hyp_rejected_key : ({ loaded with keylen := 17 } : State).opr = .idle ∧ ({ loaded with keylen := 17 } : State).keylen ≠ 16 := by
  decide

theorem test_hyp_rejected_block : ({ loaded with blklen := 15 } : State).opr = .idle ∧ ({ loaded with blklen := 15 } : State).blklen ≠ 16 := by
  decide

theorem controlInv_rejected : rejected.ControlInv := by
  unfold State.ControlInv
  decide

theorem controlInv_busyAt_last : (busyAt .expandKey 40).ControlInv := by
  unfold State.ControlInv
  decide

theorem controlInv_busyAt_first : (busyAt .decryptBlock 0).ControlInv := by
  unfold State.ControlInv
  decide

theorem test_hyp_report_kept :
    rejected.ControlInv ∧ rejected.err = true ∧ Move.host (.write 0x00 0x02) ≠ .host .reset ∧
      ∃ t, makeMove (.host (.write 0x00 0x02)) rejected = .next t := ⟨controlInv_rejected, rfl, by decide, _, rfl⟩

theorem test_hyp_report_cleared :
    rejected.ControlInv ∧ rejected.err = true ∧ ∃ t, makeMove (.host (.write 0x00 0x01)) rejected = .next t :=
  ⟨controlInv_rejected, rfl, _, rfl⟩

theorem test_hyp_kx_cases : ((36 : Fin 40).val + 4) % 4 = 0 ∧ ((39 : Fin 40).val + 4) % 4 ≠ 0 := by decide

theorem test_hyp_kx_other_bytes : (0 < 4 * ((0 : Fin 40).val + 4)) ∧ 4 * ((38 : Fin 40).val + 4) + 4 ≤ 175 := by decide

theorem test_hyp_assigned : (busyAt .encryptBlock 80).upc.toNat ≤ lastUpc (busyAt .encryptBlock 80).opr ∧
    (busyAt .expandKey 40).upc.toNat ≤ lastUpc (busyAt .expandKey 40).opr := by decide

theorem test_hyp_reserved_arguments :
    (3 : BitVec 6).toNat ≤ 3 ∧ 44 ≤ (44 : BitVec 6).toNat ∧ 44 ≤ (63 : BitVec 6).toNat ∧ 11 ≤ (11 : BitVec 6).toNat := by decide

theorem test_hyp_exec_next : Instr.isCommand .sb = false ∧ ∃ t, exec .sb (withS key1) = .next t := ⟨rfl, _, rfl⟩

/-- The clauses of the table of flags: set by `FIN`, cleared by an acceptance, set by a rejection. -/
theorem test_hyp_flags :
    after (exec .fin (busyAt .encryptBlock 80)) (fun t => (t.done, t.outv)) = some (true, true) ∧
    after (exec .finx (busyAt .expandKey 40)) (fun t => t.xkv) = some true ∧
    after (exec .encryptBlock { loaded with done := true, xkv := true, outv := true, err := true })
      (fun t => (t.done, t.err, t.xkv, t.outv)) = some (false, false, false, false) ∧
    after (exec .encryptBlock State.reset) (fun t => t.err) = some true := by decide

theorem test_hyp_upc_last :
    (busyAt .expandKey 40).ControlInv ∧ busy (busyAt .expandKey 40) = true ∧
      (busyAt .expandKey 40).upc.toNat = lastUpc (busyAt .expandKey 40).opr := ⟨controlInv_busyAt_last, by decide, by decide⟩

theorem test_hyp_upc_below :
    (busyAt .decryptBlock 0).ControlInv ∧ busy (busyAt .decryptBlock 0) = true ∧
      (busyAt .decryptBlock 0).upc.toNat < lastUpc (busyAt .decryptBlock 0).opr := ⟨controlInv_busyAt_first, by decide, by decide⟩

theorem test_hyp_constructed :
    busy (busyAt .encryptBlock 40) = true ∧ 40 ≤ (busyAt .encryptBlock 40).upc.toNat ∧
      ∃ t, coreStep (busyAt .encryptBlock 40) = .next t := ⟨by decide, by decide, _, rfl⟩

theorem test_hyp_addresses :
    0x05 ≤ (0x05 : Byte).toNat ∧ (0x0F : Byte).toNat ≤ 0x0F ∧ 0xF0 ≤ (0xF0 : Byte).toNat ∧ 0x30 ≤ (0xFF : Byte).toNat ∧
      0x30 ≤ (0x30 : Byte).toNat := by decide

theorem test_hyp_read_back :
    (0x2F : Byte) ≠ 0x00 ∧ 0x10 ≤ (0x10 : Byte).toNat ∧ (0x2F : Byte).toNat ≤ 0x2F ∧ (0x10 : Byte) ≠ 0x2F := by decide

theorem test_hyp_same_visible : SameVisible (withS key1) (withS plain1) := by
  unfold SameVisible
  exact ⟨rfl, rfl, rfl, rfl, rfl, rfl, rfl, rfl, rfl, rfl, fun _ => rfl, fun _ => rfl, rfl, rfl⟩

theorem test_hyp_pending_command :
    ({ loaded with pending := [.write 0x00 0x02] } : State).pending = .write 0x00 0x02 :: [] ∧
      decodeCommand 0x02 = .ok .encryptBlock ∧ ({ loaded with pending := [.write 0x00 0x02] } : State).opr = .idle :=
  ⟨rfl, rfl, rfl⟩

theorem test_hyp_pending_command_busy :
    ({ busyAt .expandKey 1 with pending := [.write 0x00 0x02], sched := [.host] } : State).opr ≠ .idle ∧
      ({ busyAt .expandKey 1 with pending := [.write 0x00 0x02], sched := [.host] } : State).sched = .host :: [] := by decide

theorem test_hyp_fetched :
    (busyAt .encryptBlock 41).opr ≠ .idle ∧ microWord .encryptBlock 41 = some 0x0C0 ∧ decodeMicro 0x0C0 = .ok .sb ∧
      (busyAt .encryptBlock 41).pending = [] := ⟨by decide, rfl, rfl, rfl⟩

theorem test_hyp_fetched_contended :
    ({ busyAt .encryptBlock 41 with pending := [.read 0x01], sched := [.core] } : State).pending = .read 0x01 :: [] ∧
      ({ busyAt .encryptBlock 41 with pending := [.read 0x01], sched := [.core] } : State).sched = .core :: [] := ⟨rfl, rfl⟩

theorem test_hyp_free_choice :
    ({ busyAt .encryptBlock 41 with pending := [.read 0x01] } : State).opr ≠ .idle ∧
      ({ busyAt .encryptBlock 41 with pending := [.read 0x01] } : State).sched = [] := by decide

theorem test_hyp_placed :
    Instr.wf .finx = true ∧ encode .finx = .micro 0x280 ∧ Instr.wf .decryptBlock = true ∧
      encode .decryptBlock = .command 0x03 := by decide

theorem test_hyp_step_next : ∃ t, step { loaded with pending := [.write 0x00 0x02] } = .next t := ⟨_, rfl⟩

theorem test_hyp_idle : loaded.opr = .idle ∧ loaded.pending = [] := by decide

theorem test_hyp_inv : rejected.Inv ∧ ∃ t, step rejected = .next t :=
  ⟨⟨controlInv_rejected, fun h => absurd h (by decide), fun h => absurd h (by decide)⟩, _, rfl⟩

theorem test_hyp_field_inverse : gmul 0x02 0x8D = 0x01 ∧ (0x02 : Byte) ≠ 0x00 := by decide

theorem test_hyp_first_step : busy (busyAt .expandKey 0) = true ∧ (busyAt .expandKey 0).upc = 0 := by decide

theorem test_hyp_schedule :
    NoReset (.host (.write 0x00 0x03) :: coreSteps 40) ∧ coreMoves (.host (.write 0x00 0x03) :: coreSteps 40) = 40 ∧
      (busyAt .expandKey 0).opr ≠ .idle := ⟨by unfold NoReset; decide, by decide, by decide⟩

theorem test_hyp_block_schedule :
    loaded.opr = .idle ∧ loaded.keylen = 16 ∧ loaded.blklen = 16 ∧ (∃ u, exec .encryptBlock loaded = .next u) ∧
      (∃ u, exec .decryptBlock loaded = .next u) ∧ (∃ u, exec .expandKey loaded = .next u) ∧
      NoReset (coreSteps 80) ∧ coreMoves (coreSteps 80) = 80 :=
  ⟨rfl, rfl, rfl, ⟨_, rfl⟩, ⟨_, rfl⟩, ⟨_, rfl⟩, by unfold NoReset; decide, by decide⟩

theorem test_hyp_independent :
    loaded.key = ({ loaded with st := plain1 } : State).key ∧ ({ loaded with st := plain1 } : State).opr = .idle ∧
      ∃ u, exec .decryptBlock { loaded with st := plain1 } = .next u := ⟨rfl, rfl, _, rfl⟩

theorem test_hyp_instances : (0 : Fin 2) ≠ 1 := by decide

end Sys2Proof.Tests
end

section
/-! PROOF. The core step and the instructions, said once: what each can do to the state. -/

namespace Sys2Proof

/-- The instruction is a round transform: its whole effect is `S <- f(S)` and the advance of `UPC` (43_round_transforms.md). -/
def Instr.transformsState : Instr → Bool
  | .ark _ | .sb | .sr | .mc | .isb | .isr | .imc => true
  | .nop | .expandKey | .encryptBlock | .decryptBlock | .kx _ | .fin | .finx => false

/-- The two commands that start a block operation, each with its operation (R156, R157). -/
inductive BlockCommand : Instr → Machine.Operation → Prop
  | encrypt : BlockCommand .encryptBlock .encryptBlock
  | decrypt : BlockCommand .decryptBlock .decryptBlock

theorem isCommand_of_decodeCommand {v : BitVec 8} {i : Instr} (h : decodeCommand v = .ok i) : i.isCommand = true := by
  unfold decodeCommand at h
  split at h
  · cases h
  · split at h <;> cases h <;> rfl

namespace Machine

/-- A round transform with a legal argument is `transformState` of some `f`. -/
theorem exec_transform {i : Instr} (ht : i.transformsState = true) (hw : i.wf = true) (s : State) :
    ∃ f, exec i s = transformState f s := by
  cases i with
  | ark arg =>
    have harg : arg.toNat ≤ 10 := of_decide_eq_true hw
    exact ⟨_, dif_pos harg⟩
  | sb | sr | mc | isb | isr | imc => exact ⟨_, rfl⟩
  | nop | expandKey | encryptBlock | decryptBlock | kx | fin | finx => cases ht

/-- An instruction with a next state is a legal one. -/
theorem wf_of_exec {i : Instr} {s t : State} (h : exec i s = .next t) : i.wf = true := by
  cases i with
  | kx arg =>
    have harg : 4 ≤ arg.toNat ∧ arg.toNat ≤ 43 := by
      by_contra hn
      have hr : exec (.kx arg) s = .refused .reservedMicroOperation := dif_neg hn
      cases hr.symm.trans h
    simpa [Instr.wf] using harg
  | ark arg =>
    have harg : arg.toNat ≤ 10 := by
      by_contra hn
      have hr : exec (.ark arg) s = .refused .reservedMicroOperation := dif_neg hn
      cases hr.symm.trans h
    simpa [Instr.wf] using harg
  | nop | expandKey | encryptBlock | decryptBlock | sb | sr | mc | isb | isr | imc | fin | finx => rfl

/-- `KX i` is one body of the expansion and the advance of `UPC`. -/
theorem exec_kx {arg : BitVec 6} (h : 4 ≤ arg.toNat ∧ arg.toNat ≤ 43) (s : State) :
    exec (.kx arg) s = .next (advance { s with xk := expandWord ⟨arg.toNat - 4, by omega⟩ s.xk }) := dif_pos h

/-- What instruction `i` can make of state `s`: one constructor per outcome of a next state. -/
inductive Effect (s : State) : Instr → State → Prop
  | nop : Effect s .nop s
  | dropped {i : Instr} : i.isCommand = true → busy s = true → Effect s i s
  | acceptedExpandKey : busy s = false → Effect s .expandKey (startOperation .expandKey s)
  | acceptedBlock {i : Instr} {op : Operation} : BlockCommand i op → busy s = false → lengthsValid s = true →
      Effect s i (startBlockOperation op s)
  | rejected {i : Instr} {op : Operation} : BlockCommand i op → busy s = false → lengthsValid s = false →
      Effect s i (raiseInvalidInputLength s)
  | expandedWord {arg : BitVec 6} (n : Fin 40) : arg.toNat = n.val + 4 →
      Effect s (.kx arg) (advance { s with xk := expandWord n s.xk })
  | transformed {i : Instr} (f : Block → Block) : i.transformsState = true → Effect s i (advance { s with st := f s.st })
  | finished : Effect s .fin (endOperation
      { s with out := s.st, outv := true, st := Vector.replicate 16 0, xk := Vector.replicate 176 0 })
  | finishedExpansion : Effect s .finx (endOperation { s with xkv := true })

theorem effect_of_commandBlockOperation {i : Instr} {op : Operation} {s t : State} (hc : BlockCommand i op)
    (h : commandBlockOperation op s = .next t) : Effect s i t := by
  obtain ⟨hb, he⟩ | ⟨hb, hl, he⟩ | ⟨hb, hl, he⟩ := commandBlockOperation_cases op s <;> cases he.symm.trans h
  · exact .dropped (by cases hc <;> rfl) hb
  · exact .acceptedBlock hc hb hl
  · exact .rejected hc hb hl

theorem effect_of_transform {i : Instr} {s t : State} (ht : i.transformsState = true) (h : exec i s = .next t) :
    Effect s i t := by
  obtain ⟨f, hf⟩ := exec_transform ht (wf_of_exec h) s
  cases hf.symm.trans h
  exact .transformed f ht

/-- Every next state of an instruction is one of its effects. -/
theorem effect_of_exec {i : Instr} {s t : State} (h : exec i s = .next t) : Effect s i t := by
  cases i with
  | nop => cases h; exact .nop
  | expandKey =>
    cases hb : busy s <;> simp only [exec, execExpandKey, hb] at h <;> cases h
    · exact .acceptedExpandKey hb
    · exact .dropped rfl hb
  | encryptBlock => exact effect_of_commandBlockOperation .encrypt h
  | decryptBlock => exact effect_of_commandBlockOperation .decrypt h
  | kx arg =>
    have harg : 4 ≤ arg.toNat ∧ arg.toNat ≤ 43 := by simpa [Instr.wf] using wf_of_exec h
    cases (exec_kx harg s).symm.trans h
    exact .expandedWord _ (by simp only; omega)
  | ark | sb | sr | mc | isb | isr | imc => exact effect_of_transform rfl h
  | fin => cases h; exact .finished
  | finx => cases h; exact .finishedExpansion

/-- The micro-programs of R160 to R162 and the formula of R159 are one map, at every address. -/
theorem fetch_eq_uop (s : State) : fetch s = uop s.opr s.upc := by
  unfold fetch
  generalize s.opr = op
  generalize s.upc = upc
  revert upc
  cases op <;> decide

/-- Between the expansion and the last address stand round transforms only. -/
theorem uop_transform (op : Operation) (upc : BitVec 7) (h : 40 ≤ upc.toNat) (hl : upc.toNat < lastUpc op) :
    ∃ i, uop op upc = some i ∧ i.transformsState = true ∧ i.wf = true := by
  have hany : (uop op upc).any (fun i => i.transformsState && i.wf) = true := by
    revert upc
    cases op <;> decide
  obtain ⟨i, hi, hp⟩ := (Option.any_eq_true _ _).mp hany
  exact ⟨i, hi, by simpa using hp⟩

theorem fetch_expansion {s : State} (hb : busy s = true) (h : s.upc.toNat < 40) :
    fetch s = some (.kx (BitVec.ofNat 6 (s.upc.toNat + 4))) := by
  have hop : s.opr ≠ .idle := (busy_eq_true s).mp hb
  have hle : s.upc.toNat ≤ 39 := by omega
  rw [fetch_eq_uop, uop, if_neg hop, if_pos hle]

/-- At the last address of an operation stands the micro-operation that ends it. -/
theorem fetch_last {s : State} (hb : busy s = true) (h : s.upc.toNat = lastUpc s.opr) :
    fetch s = some (if s.opr = .expandKey then .finx else .fin) := by
  rw [fetch_eq_uop, uop]
  cases hop : s.opr <;> rw [hop] at h <;> simp_all [lastUpc, busy]

/-- The core step at an assigned address, case by case: a word of the expansion, a transform of `S`, or the end. -/
theorem coreStep_cases {s : State} (hb : busy s = true) (hu : s.upc.toNat ≤ lastUpc s.opr) :
    (∃ h : s.upc.toNat < 40,
      coreStep s = .next (advance { s with xk := expandWord ⟨s.upc.toNat, h⟩ s.xk })) ∨
    (40 ≤ s.upc.toNat ∧ s.upc.toNat < lastUpc s.opr ∧ ∃ f, coreStep s = transformState f s) ∨
    (s.upc.toNat = lastUpc s.opr ∧ s.opr = .expandKey ∧ coreStep s = execFinx s) ∨
    (s.upc.toNat = lastUpc s.opr ∧ s.opr ≠ .expandKey ∧ coreStep s = execFin s) := by
  by_cases hk : s.upc.toNat < 40
  · refine .inl ⟨hk, ?_⟩
    have harg : (BitVec.ofNat 6 (s.upc.toNat + 4)).toNat = s.upc.toNat + 4 := by
      rw [BitVec.toNat_ofNat]
      omega
    rw [coreStep_of_fetch s _ (fetch_expansion hb hk), exec_kx (by omega)]
    simp [harg]
  · by_cases hl : s.upc.toNat < lastUpc s.opr
    · obtain ⟨i, hi, ht, hw⟩ := uop_transform s.opr s.upc (by omega) hl
      rw [← fetch_eq_uop] at hi
      exact .inr (.inl ⟨by omega, hl, coreStep_of_fetch s i hi ▸ exec_transform ht hw s⟩)
    · have hlast : s.upc.toNat = lastUpc s.opr := by omega
      have hstep := coreStep_of_fetch s _ (fetch_last hb hlast)
      by_cases hop : s.opr = .expandKey
      · exact .inr (.inr (.inl ⟨hlast, hop, by rw [hstep, if_pos hop]; rfl⟩))
      · exact .inr (.inr (.inr ⟨hlast, hop, by rw [hstep, if_neg hop]; rfl⟩))

end Machine
end Sys2Proof
end

section
/-! PROOF. The expansion word by word: the loop of R120 computes the words in order, and a later body keeps every earlier one. -/

namespace Sys2Proof.Machine

/-- The two expanded keys hold the same bytes at the offsets below `m`. -/
def AgreeBelow (m : Nat) (a b : ExpandedKey) : Prop := ∀ k : Fin 176, k.val < m → a[k.val] = b[k.val]

namespace AgreeBelow

variable {m n : Nat} {a b c : ExpandedKey}

theorem refl (m : Nat) (a : ExpandedKey) : AgreeBelow m a a := fun _ _ => rfl

theorem symm (h : AgreeBelow m a b) : AgreeBelow m b a := fun k hk => (h k hk).symm

theorem trans (h : AgreeBelow m a b) (h' : AgreeBelow m b c) : AgreeBelow m a c :=
  fun k hk => (h k hk).trans (h' k hk)

theorem mono (hmn : m ≤ n) (h : AgreeBelow n a b) : AgreeBelow m a b := fun k hk => h k (by omega)

theorem eq_of_all (h : AgreeBelow 176 a b) : a = b := Vector.ext fun k hk => h ⟨k, hk⟩ hk

theorem xkWord_eq (h : AgreeBelow m a b) (i : Fin 44) (hi : 4 * i.val + 4 ≤ m) : xkWord i a = xkWord i b := by
  refine Vector.ext fun j hj => ?_
  rw [getElem_xkWord, getElem_xkWord]
  exact h ⟨4 * i.val + j, by omega⟩ (by simp only; omega)

theorem roundKey_zero_eq (h : AgreeBelow 16 a b) : roundKey 0 a = roundKey 0 b := by
  refine Vector.ext fun j hj => ?_
  rw [getElem_roundKey, getElem_roundKey]
  exact h ⟨16 * (0 : Fin 11).val + j, by simp; omega⟩ (by simp; omega)

end AgreeBelow

/-- A body of the expansion keeps the bytes below its word. -/
theorem expandWord_agreeBelow (n : Fin 40) (xk : ExpandedKey) : AgreeBelow (16 + 4 * n.val) (expandWord n xk) xk := by
  intro k hk
  rw [getElem_expandWord, if_neg (by omega)]

/-- A body of the expansion reads only the bytes below its word. -/
theorem expandWord_congr (n : Fin 40) {a b : ExpandedKey} (h : AgreeBelow (16 + 4 * n.val) a b) :
    AgreeBelow (16 + 4 * (n.val + 1)) (expandWord n a) (expandWord n b) := by
  intro k hk
  rw [getElem_expandWord, getElem_expandWord]
  split
  · rw [h.xkWord_eq ⟨n.val, by omega⟩ (by simp only; omega), h.xkWord_eq ⟨n.val + 3, by omega⟩ (by simp only; omega)]
  · exact h k (by omega)

/-- The loop of R120 keeps the bytes of the words its first `m` bodies computed. -/
theorem expandWords_agreeBelow {m n : Nat} (hmn : m ≤ n) (hn : n ≤ 40) (xk : ExpandedKey) :
    AgreeBelow (16 + 4 * m) (expandWords n hn xk) (expandWords m (by omega) xk) := by
  induction n, hmn using Nat.le_induction with
  | base => exact .refl _ _
  | succ n hmn ih =>
    have hlast := expandWord_agreeBelow ⟨n, by omega⟩ (expandWords n (by omega) xk)
    exact (hlast.mono (by simp only; omega)).trans (ih (by omega))

/-- The expansion holds the key in its first sixteen bytes. -/
theorem expand_agreeBelow_loadKey (k : Block) (xk : ExpandedKey) : AgreeBelow 16 (loadKey k xk) (expand k) := by
  have hload : AgreeBelow 16 (loadKey k xk) (loadKey k (Vector.replicate 176 0)) := by
    intro j hj
    rw [getElem_loadKey, getElem_loadKey, dif_pos hj, dif_pos hj]
  exact hload.trans (expandWords_agreeBelow (Nat.zero_le 40) (by omega) _).symm

/-- One more body on the first words of `expand k` gives one word more of it. -/
theorem expandWord_agreeBelow_expand (n : Fin 40) {xk : ExpandedKey} {k : Block}
    (h : AgreeBelow (16 + 4 * n.val) xk (expand k)) :
    AgreeBelow (16 + 4 * (n.val + 1)) (expandWord n xk) (expand k) := by
  have hloop {m : Nat} (hm : m ≤ 40) :
      AgreeBelow (16 + 4 * m) (expand k) (expandWords m hm (loadKey k (Vector.replicate 176 0))) :=
    expandWords_agreeBelow hm (by omega) _
  have hbody := expandWord_congr n (h.trans (hloop (by omega)))
  exact hbody.trans (hloop (m := n.val + 1) (by omega)).symm

/-- `KX` leaves round key 0, the key of the expansion, as it is. -/
theorem roundKey_zero_expandWord (n : Fin 40) (xk : ExpandedKey) : roundKey 0 (expandWord n xk) = roundKey 0 xk :=
  ((expandWord_agreeBelow n xk).mono (by omega)).roundKey_zero_eq

end Sys2Proof.Machine
end

section
/-! PROOF. The invariants of R37 operation by operation, and the statements about them. -/

namespace Sys2Proof.Machine

/-! ### The control invariants, idle and busy -/

/-- The control invariants of an idle core: only the report is left to say. -/
theorem controlInv_iff_of_idle {s : State} (h : s.opr = .idle) :
    s.ControlInv ↔ s.upc = 0 ∧ (s.done = true → s.err = false) ∧ s.errcode = if s.err then 0x01 else 0x00 := by
  unfold State.ControlInv
  rw [h]
  cases s.err <;> cases s.done <;> simp +contextual [lastUpc]

/-- The control invariants of a busy core: no report, `XK` hidden, and `OUT` readable only beside an expansion. -/
theorem controlInv_iff_of_busy {s : State} (h : busy s = true) :
    s.ControlInv ↔ s.upc.toNat ≤ lastUpc s.opr ∧ s.done = false ∧ s.err = false ∧ s.errcode = 0x00 ∧ s.xkv = false ∧
      (s.outv = true → s.opr = .expandKey) := by
  have hop : s.opr ≠ .idle := (busy_eq_true s).mp h
  unfold State.ControlInv
  cases s.err <;> cases s.done <;> cases s.xkv <;> simp +contextual [hop]

/-- What the invariants say of a busy core besides the control: the words expanded so far, `XK` being hidden. -/
theorem inv_iff_of_busy {s : State} (h : busy s = true) : s.Inv ↔ s.ControlInv ∧ s.ExpandingPrefix := by
  unfold State.Inv
  constructor
  · rintro ⟨hc, -, hp⟩
    exact ⟨hc, hp⟩
  · rintro ⟨hc, hp⟩
    obtain ⟨-, -, -, -, hxkv, -⟩ := (controlInv_iff_of_busy h).mp hc
    exact ⟨hc, by simp [hxkv], hp⟩

theorem expandingPrefix_of_ne {s : State} (h : s.opr ≠ .expandKey) : s.ExpandingPrefix := fun he => absurd he h

/-- The invariants speak of no operand register, of neither `S` nor `OUT`, and of none of the model's own fields. -/
theorem inv_frame {s : State} (h : s.Inv) {key block st out : Block} {keylen blklen : Byte} {pending : List HostAccess}
    {reads : List (Byte × Byte)} {sched : List Agent} {turn : Nat} :
    State.Inv { s with key, block, st, out, keylen, blklen, pending, reads, sched, turn } := h

/-! ### The host's transitions -/

theorem inv_resetCore (s : State) : (resetCore s).Inv := by
  have hctl : (resetCore s).ControlInv :=
    (controlInv_iff_of_idle (resetCore_opr s)).mpr ⟨rfl, fun _ => rfl, rfl⟩
  exact ⟨hctl, by simp, expandingPrefix_of_ne (by simp)⟩

/-- Every acceptance ends in a busy state with the report cleared: what is left is where `OUT` may be readable. -/
theorem controlInv_startOperation {op : Operation} {s : State} (hop : op ≠ .idle) (ho : s.outv = true → op = .expandKey) :
    (startOperation op s).ControlInv := by
  have hb : busy (startOperation op s) = true := (busy_eq_true _).mpr hop
  exact (controlInv_iff_of_busy hb).mpr ⟨Nat.zero_le _, rfl, rfl, rfl, rfl, by simpa using ho⟩

theorem inv_startExpandKey (s : State) : (startOperation .expandKey s).Inv := by
  refine (inv_iff_of_busy rfl).mpr ⟨controlInv_startOperation (by decide) fun _ => rfl, fun _ => ?_⟩
  rw [startOperation_xk, roundKey_zero_loadKey]
  exact expand_agreeBelow_loadKey s.key s.xk

theorem inv_startBlockOperation {i : Instr} {op : Operation} (hc : BlockCommand i op) (s : State) :
    (startBlockOperation op s).Inv := by
  have hop : op ≠ .idle ∧ op ≠ .expandKey := by cases hc <;> decide
  have hb : busy (startBlockOperation op s) = true := (busy_eq_true _).mpr hop.1
  have hctl : (startBlockOperation op s).ControlInv :=
    (controlInv_iff_of_busy hb).mpr ⟨Nat.zero_le _, rfl, rfl, rfl, rfl, fun h => nomatch h⟩
  exact (inv_iff_of_busy hb).mpr ⟨hctl, expandingPrefix_of_ne hop.2⟩

/-- A rejection is made by an idle core, and leaves it idle with the report set and `DONE` cleared. -/
theorem inv_raiseInvalidInputLength {s : State} (hi : s.opr = .idle) (h : s.Inv) : (raiseInvalidInputLength s).Inv := by
  obtain ⟨hc, hxk, hp⟩ := h
  obtain ⟨hupc, -, -⟩ := (controlInv_iff_of_idle hi).mp hc
  have hctl : (raiseInvalidInputLength s).ControlInv :=
    (controlInv_iff_of_idle (by exact hi)).mpr ⟨hupc, by simp, rfl⟩
  exact ⟨hctl, hxk, hp⟩

/-- A command keeps the invariants: dropped, accepted or rejected. -/
theorem inv_command {i : Instr} (hcmd : i.isCommand = true) {s t : State} (h : s.Inv) (he : Effect s i t) : t.Inv := by
  cases he with
  | nop => exact h
  | dropped => exact h
  | acceptedExpandKey => exact inv_startExpandKey s
  | acceptedBlock hc => exact inv_startBlockOperation hc s
  | rejected _ hb => exact inv_raiseInvalidInputLength ((busy_eq_false s).mp hb) h
  | transformed f ht => cases i <;> simp [Instr.isCommand, Instr.transformsState] at hcmd ht
  | expandedWord | finished | finishedExpansion => cases hcmd

theorem inv_writeRegister (a v : Byte) {s : State} (h : s.Inv) : (writeRegister a v s).Inv := by
  rw [writeRegister_frame]
  exact inv_frame h

theorem inv_hostWrite {a v : Byte} {s t : State} (h : s.Inv) (he : hostWrite a v s = .next t) : t.Inv := by
  by_cases ha : a = 0x00
  · rw [ha, hostWrite_cmd, command] at he
    cases hd : decodeCommand v with
    | ok i =>
      rw [hd] at he
      exact inv_command (isCommand_of_decodeCommand hd) h (effect_of_exec he)
    | error e =>
      rw [hd] at he
      cases he
      exact h
  · cases (hostWrite_of_ne a v s ha).symm.trans he
    exact inv_writeRegister a v h

theorem inv_hostRead (a : Byte) {s : State} (h : s.Inv) : (hostRead a s).Inv := inv_frame h

theorem inv_hostWait {s : State} (h : s.Inv) : (hostWait s).Inv := by
  cases hb : busy s with
  | false => exact hostWait_idle s hb ▸ inv_hostRead _ h
  | true => exact hostWait_busy s hb ▸ inv_frame (inv_hostRead _ h)

theorem inv_hostAccess {a : HostAccess} {s t : State} (h : s.Inv) (he : hostAccess a s = .next t) : t.Inv := by
  cases a with
  | write a v => exact inv_hostWrite h he
  | read a => cases he; exact inv_hostRead a h
  | reset => cases he; exact inv_resetCore s
  | wait => cases he; exact inv_hostWait h

/-! ### The core's transitions -/

/-- Below the last address `UPC` counts one up: no assigned address is near the end of its seven bits (R28). -/
theorem toNat_add_one_of_lt_lastUpc {u : BitVec 7} {op : Operation} (h : u.toNat < lastUpc op) :
    (u + 1).toNat = u.toNat + 1 := by
  have hlast : lastUpc op ≤ 80 := by cases op <;> decide
  exact BitVec.toNat_add_of_lt (show u.toNat + 1 < 2 ^ 7 by omega)

/-- The expansion stands before the last address of every operation. -/
theorem lt_lastUpc_of_lt {op : Operation} (hop : op ≠ .idle) {n : Nat} (hn : n < 40) : n < lastUpc op := by
  cases op with
  | idle => exact absurd rfl hop
  | expandKey => exact hn
  | encryptBlock | decryptBlock => exact hn.trans (by decide)

/-- A step that advances `UPC` below the last address keeps the control invariants, whatever it writes to `S` and `XK`. -/
theorem controlInv_advance {s : State} (hb : busy s = true) (hu : s.upc.toNat < lastUpc s.opr) (h : s.ControlInv) :
    (advance s).ControlInv := by
  obtain ⟨-, hd, he, hec, hxkv, hout⟩ := (controlInv_iff_of_busy hb).mp h
  have hupc : (advance s).upc.toNat ≤ lastUpc s.opr := by
    rw [advance_upc, toNat_add_one_of_lt_lastUpc hu]
    exact hu
  exact (controlInv_iff_of_busy (by exact hb)).mpr ⟨hupc, hd, he, hec, hxkv, hout⟩

/-- The end of an operation leaves a busy core idle and done, with no error. -/
theorem controlInv_endOperation {s : State} (he : s.err = false) (hec : s.errcode = 0x00) :
    (endOperation s).ControlInv :=
  (controlInv_iff_of_idle (s := endOperation s) rfl).mpr ⟨rfl, fun _ => he, by rw [endOperation_err, he]; exact hec⟩

theorem inv_expandWord {s : State} (hb : busy s = true) (hn : s.upc.toNat < 40) (h : s.Inv) :
    (advance { s with xk := expandWord ⟨s.upc.toNat, hn⟩ s.xk }).Inv := by
  obtain ⟨hc, hp⟩ := (inv_iff_of_busy hb).mp h
  have hu := lt_lastUpc_of_lt ((busy_eq_true s).mp hb) hn
  have hctl := controlInv_advance (s := { s with xk := expandWord ⟨s.upc.toNat, hn⟩ s.xk }) hb hu hc
  refine (inv_iff_of_busy (by exact hb)).mpr ⟨hctl, fun he => ?_⟩
  rw [advance_xk, advance_upc, toNat_add_one_of_lt_lastUpc hu, roundKey_zero_expandWord]
  exact expandWord_agreeBelow_expand ⟨s.upc.toNat, hn⟩ (hp he)

theorem inv_transform {s : State} (hb : busy s = true) (h40 : 40 ≤ s.upc.toNat) (hu : s.upc.toNat < lastUpc s.opr)
    (h : s.Inv) (st : Block) : (advance { s with st }).Inv := by
  obtain ⟨hc, -⟩ := (inv_iff_of_busy hb).mp h
  have hop : s.opr ≠ .expandKey := by
    intro he
    rw [he, lastUpc] at hu
    omega
  have hctl := controlInv_advance (s := { s with st }) hb hu hc
  exact (inv_iff_of_busy (by exact hb)).mpr ⟨hctl, expandingPrefix_of_ne hop⟩

/-- `FINX`: at `UPC = 40` the words expanded so far are the whole expanded key. -/
theorem inv_execFinx {s t : State} (hop : s.opr = .expandKey) (hu : s.upc.toNat = lastUpc s.opr) (h : s.Inv)
    (he : execFinx s = .next t) : t.Inv := by
  cases he
  have hb : busy s = true := by simp [busy, hop]
  obtain ⟨hc, hp⟩ := (inv_iff_of_busy hb).mp h
  obtain ⟨-, -, herr, hec, -, -⟩ := (controlInv_iff_of_busy hb).mp hc
  have hall : AgreeBelow (16 + 4 * s.upc.toNat) s.xk (expand (roundKey 0 s.xk)) := hp hop
  rw [hu, hop] at hall
  exact ⟨controlInv_endOperation herr hec, fun _ => hall.eq_of_all, expandingPrefix_of_ne (by simp)⟩

/-- `FIN`: `XK` is cleared, and stays hidden. -/
theorem inv_execFin {s t : State} (hb : busy s = true) (h : s.Inv) (he : execFin s = .next t) : t.Inv := by
  cases he
  obtain ⟨hc, -⟩ := (inv_iff_of_busy hb).mp h
  obtain ⟨-, -, herr, hec, hxkv, -⟩ := (controlInv_iff_of_busy hb).mp hc
  refine ⟨controlInv_endOperation herr hec, fun hv => ?_, expandingPrefix_of_ne (by simp)⟩
  exact absurd hv (by simp [hxkv])

theorem inv_coreStep {s t : State} (hb : busy s = true) (h : s.Inv) (he : coreStep s = .next t) : t.Inv := by
  obtain ⟨hc, -⟩ := (inv_iff_of_busy hb).mp h
  obtain ⟨hu, -⟩ := (controlInv_iff_of_busy hb).mp hc
  obtain ⟨hn, hs⟩ | ⟨h40, hl, f, hs⟩ | ⟨hl, hop, hs⟩ | ⟨-, -, hs⟩ := coreStep_cases hb hu
  · cases hs.symm.trans he
    exact inv_expandWord hb hn h
  · cases hs.symm.trans he
    exact inv_transform hb h40 hl h (f s.st)
  · exact inv_execFinx hop hl h (hs.symm.trans he)
  · exact inv_execFin hb h (hs.symm.trans he)

/-! ### The step -/

/-- A step is one move of the order of R60: none, a core step of a busy core, or the host's oldest access; a choice between the
two touches only the fields that hold the order. -/
theorem step_cases (s : State) :
    (busy s = false ∧ s.pending = [] ∧ step s = .next s) ∨
    (busy s = true ∧ ∃ q n, step s = coreStep { s with sched := q, turn := n }) ∨
    (∃ a rest q n, s.pending = a :: rest ∧
      step s = hostAccess a { s with pending := rest, sched := q, turn := n }) := by
  by_cases hp : s.pending = []
  · cases hb : busy s with
    | false => exact .inl ⟨rfl, hp, step_nothing s hp hb⟩
    | true => exact .inr (.inl ⟨rfl, s.sched, s.turn, step_core_alone s hp hb⟩)
  · obtain ⟨a, rest, hp⟩ := List.exists_cons_of_ne_nil hp
    cases hb : busy s with
    | false => exact .inr (.inr ⟨a, rest, s.sched, s.turn, hp, step_host_alone s a rest hp hb⟩)
    | true =>
      have hs := step_contended s a rest hp hb
      rw [chooseAgent_frame] at hs
      split at hs
      · exact .inr (.inl ⟨rfl, _, _, hs⟩)
      · exact .inr (.inr ⟨a, rest, _, _, hp, hs⟩)

/-- Settles O39: each of the three kinds of step keeps the invariants. -/
theorem invariantsKeptByEveryStep : Obligations.InvariantsKeptByEveryStep := by
  intro s t h he
  obtain ⟨-, -, hs⟩ | ⟨hb, q, n, hs⟩ | ⟨a, rest, q, n, -, hs⟩ := step_cases s
  · cases hs.symm.trans he
    exact h
  · exact inv_coreStep (s := { s with sched := q, turn := n }) hb (inv_frame h) (hs.symm.trans he)
  · exact inv_hostAccess (inv_frame h) (hs.symm.trans he)

/-- Settles O38: the reset state is what the reset transition makes of itself. -/
theorem invariantsHoldAtReset : Obligations.InvariantsHoldAtReset := inv_resetCore State.reset

/-- Settles O23: of a busy core's step, the expansion and the transforms advance, `FINX` and `FIN` end the operation. -/
theorem upcCountsWithoutOverflow : Obligations.UpcCountsWithoutOverflow := by
  intro s hc hb
  obtain ⟨hu, -⟩ := (controlInv_iff_of_busy hb).mp hc
  have hop : s.opr ≠ .idle := (busy_eq_true s).mp hb
  obtain ⟨hn, hs⟩ | ⟨-, hl, f, hs⟩ | ⟨hl, -, hs⟩ | ⟨hl, -, hs⟩ := coreStep_cases hb hu
  · have hl := lt_lastUpc_of_lt hop hn
    exact ⟨_, hs, fun _ => ⟨toNat_add_one_of_lt_lastUpc hl, rfl⟩, fun h => absurd h hl.ne⟩
  · exact ⟨_, hs, fun _ => ⟨toNat_add_one_of_lt_lastUpc hl, rfl⟩, fun h => absurd h hl.ne⟩
  · exact ⟨_, hs, fun h => absurd hl h.ne, fun _ => ⟨rfl, rfl, rfl⟩⟩
  · exact ⟨_, hs, fun h => absurd hl h.ne, fun _ => ⟨rfl, rfl, rfl⟩⟩

end Sys2Proof.Machine
end

section
/-! PROOF. Which instruction changes what (R20, R29), from the effects of each. -/

namespace Sys2Proof

theorem Instr.transformsState_iff (i : Instr) :
    i.transformsState = true ↔
      (∃ r, i = .ark r) ∨ i = .sb ∨ i = .sr ∨ i = .mc ∨ i = .isb ∨ i = .isr ∨ i = .imc := by
  cases i <;> simp [Instr.transformsState]

theorem BlockCommand.instr_eq {i : Instr} {op : Machine.Operation} (h : BlockCommand i op) :
    i = .encryptBlock ∨ i = .decryptBlock := by
  cases h with
  | encrypt => exact .inl rfl
  | decrypt => exact .inr rfl

theorem BlockCommand.opr_ne_idle {i : Instr} {op : Machine.Operation} (h : BlockCommand i op) : op ≠ .idle := by
  cases h <;> decide

namespace Machine

/-- Settles O21: each effect changes only the registers R20 gives its instruction. -/
theorem onlyTheNamedInstructionsWrite : Obligations.OnlyTheNamedInstructionsWrite := by
  intro i s t h
  cases effect_of_exec h with
  | nop | dropped => simp
  | acceptedExpandKey => simp
  | acceptedBlock hc => obtain rfl | rfl := hc.instr_eq <;> simp
  | rejected hc => obtain rfl | rfl := hc.instr_eq <;> simp
  | expandedWord => simp
  | transformed f ht =>
    have hi := (Instr.transformsState_iff i).mp ht
    have hnop : i ≠ .nop := by rintro rfl; cases ht
    exact ⟨by simp, by simp, by simp, fun _ => by tauto, by simp, by simp, fun _ => hnop, by simp⟩
  | finished | finishedExpansion => simp

/-- Settles O22: flags rise at `FIN`, at `FINX` and at a rejection, and fall at an acceptance and, `DONE`, at a rejection. -/
theorem flagsSetAndClearedAsTheTable : Obligations.FlagsSetAndClearedAsTheTable := by
  intro i s t h
  cases effect_of_exec h with
  | nop | dropped => simp +contextual
  | acceptedExpandKey => simp +contextual
  | acceptedBlock hc => simp [hc.instr_eq, hc.opr_ne_idle]
  | rejected hc => simp +contextual [hc.instr_eq]
  | expandedWord | transformed => simp +contextual
  | finished | finishedExpansion => simp +contextual

end Machine
end Sys2Proof
end

section
/-! PROOF. What the host sees (R36): the reads of the port, and that no access tells two states apart that looked alike. -/

namespace Sys2Proof.Machine

theorem memRead_reset (a : Byte) : memRead a State.reset = 0x00 := by
  simp [memRead, statusByte, flagBit, busy, State.reset]

/-- Settles O30: the registers as `State.reset` writes them, and every read of them. -/
theorem resetStateIsAllZero : Obligations.ResetStateIsAllZero := by
  refine ⟨fun k => ?_, fun k => ?_, rfl, rfl, rfl, rfl, rfl, rfl, rfl, rfl, rfl, memRead_reset⟩
  · simp [State.reset]
  · simp [State.reset]

/-- Every address reads the same in two states the host cannot tell apart: the two gated windows show `OUT` and `XK` only where
these agree. -/
theorem SameVisible.memRead_eq {s t : State} (h : SameVisible s t) (a : Byte) : memRead a s = memRead a t := by
  obtain ⟨hkey, hblock, hkeylen, hblklen, hdone, herr, hxkv, houtv, herrcode, hbusy, hout, hxk, -, -⟩ := h
  have hstatus : statusByte s = statusByte t := by simp only [statusByte, hdone, herr, hxkv, houtv, hbusy]
  have houtWindow (i : Nat) (hi : i < 16) : (if s.outv then s.out[i] else 0x00) = if t.outv then t.out[i] else 0x00 := by
    rw [← houtv]
    split
    next hv => rw [hout hv]
    next => rfl
  have hxkWindow (k : Nat) (hk : k < 176) : (if s.xkv then s.xk[k] else 0x00) = if t.xkv then t.xk[k] else 0x00 := by
    rw [← hxkv]
    split
    next hv => rw [hxk hv]
    next => rfl
  simp only [memRead, hstatus, herrcode, hkeylen, hblklen, hkey, hblock, houtWindow, hxkWindow]

theorem SameVisible.busy_eq {s t : State} (h : SameVisible s t) : busy s = busy t := by
  obtain ⟨-, -, -, -, -, -, -, -, -, hbusy, -⟩ := h
  exact hbusy

theorem SameVisible.lengthsValid_eq {s t : State} (h : SameVisible s t) : lengthsValid s = lengthsValid t := by
  obtain ⟨-, -, hkeylen, hblklen, -⟩ := h
  simp only [lengthsValid, hkeylen, hblklen]

/-! ### The accesses, one by one -/

theorem SameVisible.startOperation {s t : State} (h : SameVisible s t) (op : Operation) :
    SameVisible (startOperation op s) (startOperation op t) := by
  obtain ⟨hkey, hblock, hkeylen, hblklen, -, -, -, houtv, -, -, hout, -, hpending, hreads⟩ := h
  simpa [SameVisible, busy, hkey, hblock, hkeylen, hblklen, ← houtv, hpending, hreads] using hout

theorem SameVisible.startBlockOperation {s t : State} (h : SameVisible s t) (op : Operation) :
    SameVisible (startBlockOperation op s) (startBlockOperation op t) := by
  obtain ⟨hkey, hblock, hkeylen, hblklen, -, -, -, -, -, -, -, -, hpending, hreads⟩ := h
  simp [SameVisible, busy, hkey, hblock, hkeylen, hblklen, hpending, hreads]

theorem SameVisible.raiseInvalidInputLength {s t : State} (h : SameVisible s t) :
    SameVisible (raiseInvalidInputLength s) (raiseInvalidInputLength t) := by
  obtain ⟨hkey, hblock, hkeylen, hblklen, -, -, hxkv, houtv, -, hbusy, hout, hxk, hpending, hreads⟩ := h
  exact ⟨hkey, hblock, hkeylen, hblklen, rfl, rfl, hxkv, houtv, rfl, hbusy, hout, hxk, hpending, hreads⟩

/-- The host may change its operands, its accesses and its record in both states alike. -/
theorem SameVisible.frame {s t : State} (h : SameVisible s t) {key key' block block' : Block}
    {keylen keylen' blklen blklen' : Byte} {pending pending' : List HostAccess} {reads reads' : List (Byte × Byte)}
    (hkey : key = key') (hblock : block = block') (hkeylen : keylen = keylen') (hblklen : blklen = blklen')
    (hpending : pending = pending') (hreads : reads = reads') :
    SameVisible { s with key, block, keylen, blklen, pending, reads }
      { t with key := key', block := block', keylen := keylen', blklen := blklen', pending := pending',
               reads := reads' } := by
  obtain ⟨-, -, -, -, hdone, herr, hxkv, houtv, herrcode, hbusy, hout, hxk, -, -⟩ := h
  exact ⟨hkey, hblock, hkeylen, hblklen, hdone, herr, hxkv, houtv, herrcode, hbusy, hout, hxk, hpending, hreads⟩

theorem SameVisible.hostRead {s t : State} (h : SameVisible s t) (a : Byte) :
    SameVisible (hostRead a s) (hostRead a t) := by
  have hread := h.memRead_eq a
  obtain ⟨hkey, hblock, hkeylen, hblklen, -, -, -, -, -, -, -, -, hpending, hreads⟩ := id h
  exact h.frame hkey hblock hkeylen hblklen hpending (by rw [hreads, hread])

theorem SameVisible.hostWait {s t : State} (h : SameVisible s t) : SameVisible (hostWait s) (hostWait t) := by
  have hr := h.hostRead statusAddress
  obtain ⟨hkey, hblock, hkeylen, hblklen, -, -, -, -, -, hbusy, -, -, hpending, hreads⟩ := id hr
  cases hb : busy s with
  | false => rwa [hostWait_idle s hb, hostWait_idle t (hbusy ▸ hb)]
  | true =>
    rw [hostWait_busy s hb, hostWait_busy t (hbusy ▸ hb)]
    exact hr.frame hkey hblock hkeylen hblklen (congrArg (HostAccess.wait :: ·) hpending) hreads

theorem SameVisible.resetCore {s t : State} (h : SameVisible s t) : SameVisible (resetCore s) (resetCore t) := by
  obtain ⟨-, -, -, -, -, -, -, -, -, -, -, -, hpending, hreads⟩ := h
  exact ⟨rfl, rfl, rfl, rfl, rfl, rfl, rfl, rfl, rfl, rfl, fun _ => rfl, fun _ => rfl, hpending, hreads⟩

theorem SameVisible.writeRegister {s t : State} (h : SameVisible s t) (a v : Byte) :
    SameVisible (writeRegister a v s) (writeRegister a v t) := by
  obtain ⟨hkey, hblock, hkeylen, hblklen, -, -, -, -, -, -, -, -, hpending, hreads⟩ := id h
  unfold Machine.writeRegister
  dsimp only
  split
  · exact h.frame hkey hblock rfl hblklen hpending hreads
  split
  · exact h.frame hkey hblock hkeylen rfl hpending hreads
  split
  · exact h.frame (by rw [hkey]) hblock hkeylen hblklen hpending hreads
  split
  · exact h.frame hkey (by rw [hblock]) hkeylen hblklen hpending hreads
  · exact h

/-- Both results are next states, and the host cannot tell these apart. -/
def SameVisibleNext (r r' : Result) : Prop := ∃ s t, r = .next s ∧ r' = .next t ∧ SameVisible s t

theorem SameVisible.commandBlockOperation {s t : State} (h : SameVisible s t) (op : Operation) :
    SameVisibleNext (commandBlockOperation op s) (commandBlockOperation op t) := by
  unfold Machine.commandBlockOperation
  rw [h.busy_eq, h.lengthsValid_eq]
  split
  · exact ⟨s, t, rfl, rfl, h⟩
  split
  · exact ⟨_, _, rfl, rfl, h.startBlockOperation op⟩
  · exact ⟨_, _, rfl, rfl, h.raiseInvalidInputLength⟩

theorem SameVisible.execCommand {s t : State} (h : SameVisible s t) {i : Instr} (hi : i.isCommand = true) :
    SameVisibleNext (exec i s) (exec i t) := by
  cases i with
  | nop => exact ⟨s, t, rfl, rfl, h⟩
  | expandKey =>
    simp only [exec, execExpandKey]
    rw [h.busy_eq]
    split
    · exact ⟨s, t, rfl, rfl, h⟩
    · exact ⟨_, _, rfl, rfl, h.startOperation .expandKey⟩
  | encryptBlock => exact h.commandBlockOperation .encryptBlock
  | decryptBlock => exact h.commandBlockOperation .decryptBlock
  | kx | ark | sb | sr | mc | isb | isr | imc | fin | finx => cases hi

theorem SameVisible.hostWrite {s t : State} (h : SameVisible s t) (a v : Byte) :
    SameVisibleNext (hostWrite a v s) (hostWrite a v t) := by
  by_cases ha : a = 0x00
  · rw [ha, hostWrite_cmd, hostWrite_cmd, command, command]
    cases hd : decodeCommand v with
    | ok i => exact h.execCommand (isCommand_of_decodeCommand hd)
    | error e => exact ⟨s, t, rfl, rfl, h⟩
  · rw [hostWrite_of_ne a v s ha, hostWrite_of_ne a v t ha]
    exact ⟨_, _, rfl, rfl, h.writeRegister a v⟩

/-- Settles O29: the reads agree, and each kind of access acts alike on two states that look alike. -/
theorem hiddenStateStaysHidden : Obligations.HiddenStateStaysHidden := by
  intro a s t h
  refine ⟨h.memRead_eq, ?_⟩
  cases a with
  | write a v => exact h.hostWrite a v
  | read a => exact ⟨_, _, rfl, rfl, h.hostRead a⟩
  | reset => exact ⟨_, _, rfl, rfl, h.resetCore⟩
  | wait => exact ⟨_, _, rfl, rfl, h.hostWait⟩

end Sys2Proof.Machine
end

section
/-! PROOF. The port address by address (R53, R54): what each address reads, what a write to it does, and that the two fit. -/

namespace Sys2Proof.Machine

/-! ### The reads, window by window -/

theorem memRead_key {a : Byte} {i : Nat} (hi : i < 16) (ha : a.toNat = 0x10 + i) (s : State) :
    memRead a s = s.key[i] := by
  simp (disch := omega) only [memRead, ha, if_neg, dif_pos, Nat.add_sub_cancel_left]

theorem memRead_block {a : Byte} {i : Nat} (hi : i < 16) (ha : a.toNat = 0x20 + i) (s : State) :
    memRead a s = s.block[i] := by
  simp (disch := omega) only [memRead, ha, if_neg, dif_neg, dif_pos, Nat.add_sub_cancel_left]

theorem memRead_out {a : Byte} {i : Nat} (hi : i < 16) (ha : a.toNat = 0x30 + i) (s : State) :
    memRead a s = if s.outv then s.out[i] else 0x00 := by
  simp (disch := omega) only [memRead, ha, if_neg, dif_neg, dif_pos, Nat.add_sub_cancel_left]

theorem memRead_xk {a : Byte} {k : Nat} (hk : k < 176) (ha : a.toNat = 0x40 + k) (s : State) :
    memRead a s = if s.xkv then s.xk[k] else 0x00 := by
  simp (disch := omega) only [memRead, ha, if_neg, dif_neg, dif_pos, Nat.add_sub_cancel_left]

theorem memRead_reserved {a : Byte} (ha : (0x05 ≤ a.toNat ∧ a.toNat ≤ 0x0F) ∨ 0xF0 ≤ a.toNat) (s : State) :
    memRead a s = 0x00 := by
  simp (disch := omega) only [memRead, if_neg, dif_neg]

/-- An address `base + i` of a window is that number. -/
theorem toNat_windowAddress {base i : Nat} (h : base + i < 256) : (BitVec.ofNat 8 (base + i)).toNat = base + i :=
  Nat.mod_eq_of_lt h

theorem busy_eq_decide (s : State) : busy s = decide (s.opr ≠ .idle) := by
  rw [Bool.eq_iff_iff, busy_eq_true, decide_eq_true_iff]

/-- A flag appended to a word is its bit 0 and moves the others one up. -/
theorem getLsbD_append_flagBit {w : Nat} (x : BitVec w) (b : Bool) (n : Nat) :
    (x ++ flagBit b).getLsbD n = if n = 0 then b else x.getLsbD (n - 1) := by
  rw [BitVec.getLsbD_append]
  cases n <;> simp [flagBit]

/-- `STATUS` bit by bit (R34). -/
theorem getLsbD_statusByte (s : State) (n : Nat) :
    (statusByte s).getLsbD n =
      if n = 0 then busy s else if n = 1 then s.done else if n = 2 then s.err else if n = 3 then s.xkv
      else if n = 4 then s.outv else false := by
  match n with
  | 0 | 1 | 2 | 3 | 4 | n + 5 => simp [statusByte, getLsbD_append_flagBit, -BitVec.getLsbD_eq_getElem]

/-- Settles O26: each window's read, and `STATUS` by its bits. -/
theorem hostReadMap : Obligations.HostReadMap := by
  intro s
  refine ⟨fun a => rfl, rfl, rfl, rfl, rfl, fun i => ?_, fun i => ?_, fun i => ?_, fun k => ?_, fun a ha => ?_,
    fun n => ?_⟩
  · exact memRead_key i.isLt (toNat_windowAddress (by omega)) s
  · exact memRead_block i.isLt (toNat_windowAddress (by omega)) s
  · exact memRead_out i.isLt (toNat_windowAddress (by omega)) s
  · exact memRead_xk k.isLt (toNat_windowAddress (by omega)) s
  · exact memRead_reserved ha s
  · have hstatus : memRead 0x01 s = statusByte s := rfl
    rw [hstatus, getLsbD_statusByte, busy_eq_decide]
    fin_cases n <;> rfl

/-! ### The writes, register by register -/

theorem writeRegister_key {a : Byte} {i : Nat} (hi : i < 16) (ha : a.toNat = 0x10 + i) (v : Byte) (s : State) :
    writeRegister a v s = { s with key := s.key.set i v } := by
  simp (disch := omega) only [writeRegister, ha, if_neg, dif_pos, Nat.add_sub_cancel_left]

theorem writeRegister_block {a : Byte} {i : Nat} (hi : i < 16) (ha : a.toNat = 0x20 + i) (v : Byte) (s : State) :
    writeRegister a v s = { s with block := s.block.set i v } := by
  simp (disch := omega) only [writeRegister, ha, if_neg, dif_neg, dif_pos, Nat.add_sub_cancel_left]

/-- The address is read-write: `KEYLEN`, `BLKLEN`, `KEY` or `BLOCK` (R51). -/
def OperandAddress (a : Byte) : Prop := a.toNat = 0x03 ∨ a.toNat = 0x04 ∨ (0x10 ≤ a.toNat ∧ a.toNat ≤ 0x2F)

theorem writeRegister_ignored {a : Byte} (ha : ¬ OperandAddress a) (v : Byte) (s : State) : writeRegister a v s = s := by
  unfold OperandAddress at ha
  simp (disch := omega) only [writeRegister, if_neg, dif_neg]

/-- Away from `CMD` a write is what `writeRegister` makes of the state. -/
theorem hostAccess_write {a v : Byte} {s t : State} (ha : a.toNat ≠ 0) (h : writeRegister a v s = t) :
    hostAccess (.write a v) s = .next t := by
  have hne : a ≠ 0x00 := by rintro rfl; exact ha rfl
  exact h ▸ hostWrite_of_ne a v s hne

/-- Settles O27: `CMD` commands, the operand registers store, every other address ignores the write. -/
theorem hostWriteMap : Obligations.HostWriteMap := by
  intro v s
  refine ⟨hostWrite_cmd v s, rfl, rfl, fun i => ?_, fun i => ?_, fun a ha => ?_⟩
  · have haddr := toNat_windowAddress (base := 0x10) (i := i) (by omega)
    exact hostAccess_write (by omega) (writeRegister_key i.isLt haddr v s)
  · have haddr := toNat_windowAddress (base := 0x20) (i := i) (by omega)
    exact hostAccess_write (by omega) (writeRegister_block i.isLt haddr v s)
  · have hro : ¬ OperandAddress a := by
      unfold OperandAddress
      omega
    exact hostAccess_write (by omega) (writeRegister_ignored hro v s)

/-! ### Reads after writes -/

/-- A change of `KEYLEN` is read at its own address only. -/
theorem memRead_with_keylen_of_ne {b : Byte} (hb : b.toNat ≠ 0x03) (v : Byte) (s : State) :
    memRead b { s with keylen := v } = memRead b s := by
  simp only [memRead, if_neg hb]
  rfl

/-- A change of `BLKLEN` is read at its own address only. -/
theorem memRead_with_blklen_of_ne {b : Byte} (hb : b.toNat ≠ 0x04) (v : Byte) (s : State) :
    memRead b { s with blklen := v } = memRead b s := by
  simp only [memRead, if_neg hb]
  rfl

/-- A change of `KEY[i]` is read at its own address only. -/
theorem memRead_set_key_of_ne {b : Byte} {i : Nat} (hi : i < 16) (hb : b.toNat ≠ 0x10 + i) (v : Byte) (s : State) :
    memRead b { s with key := s.key.set i v } = memRead b s := by
  by_cases hw : 0x10 ≤ b.toNat ∧ b.toNat ≤ 0x1F
  · obtain ⟨j, hj⟩ := Nat.exists_eq_add_of_le hw.1
    have hj16 : j < 16 := by omega
    have hij : i ≠ j := by omega
    rw [memRead_key hj16 hj, memRead_key hj16 hj, Vector.getElem_set_ne hi hj16 hij]
  · simp only [memRead, dif_neg hw]
    rfl

/-- A change of `BLOCK[i]` is read at its own address only. -/
theorem memRead_set_block_of_ne {b : Byte} {i : Nat} (hi : i < 16) (hb : b.toNat ≠ 0x20 + i) (v : Byte) (s : State) :
    memRead b { s with block := s.block.set i v } = memRead b s := by
  by_cases hw : 0x20 ≤ b.toNat ∧ b.toNat ≤ 0x2F
  · obtain ⟨j, hj⟩ := Nat.exists_eq_add_of_le hw.1
    have hj16 : j < 16 := by omega
    have hij : i ≠ j := by omega
    rw [memRead_block hj16 hj, memRead_block hj16 hj, Vector.getElem_set_ne hi hj16 hij]
  · simp only [memRead, dif_neg hw]
    rfl

/-- The operand registers in the order of the map; every other address is none of theirs. -/
theorem operandAddress_cases (a : Byte) :
    a = 0x03 ∨ a = 0x04 ∨ (∃ i < 16, a.toNat = 0x10 + i) ∨ (∃ i < 16, a.toNat = 0x20 + i) ∨ ¬ OperandAddress a := by
  by_cases ha : OperandAddress a
  · obtain ha | ha | ⟨hlo, hhi⟩ := ha
    · exact .inl (BitVec.eq_of_toNat_eq ha)
    · exact .inr (.inl (BitVec.eq_of_toNat_eq ha))
    · by_cases hkey : a.toNat ≤ 0x1F
      · exact .inr (.inr (.inl ⟨a.toNat - 0x10, by omega, by omega⟩))
      · exact .inr (.inr (.inr (.inl ⟨a.toNat - 0x20, by omega, by omega⟩)))
  · exact .inr (.inr (.inr (.inr ha)))

/-- Settles O28: the byte written stands in the one register its address reads, and a write elsewhere is ignored. -/
theorem writtenBytesReadBack : Obligations.WrittenBytesReadBack := by
  intro a v s _
  have hne {b : Byte} (hb : b ≠ a) : b.toNat ≠ a.toNat := mt BitVec.eq_of_toNat_eq hb
  obtain rfl | rfl | ⟨i, hi, ha⟩ | ⟨i, hi, ha⟩ | ha := operandAddress_cases a
  · exact ⟨fun _ => rfl, fun b hb => memRead_with_keylen_of_ne (hne hb) v s⟩
  · exact ⟨fun _ => rfl, fun b hb => memRead_with_blklen_of_ne (hne hb) v s⟩
  · rw [writeRegister_key hi ha]
    refine ⟨fun _ => ?_, fun b hb => memRead_set_key_of_ne hi (ha ▸ hne hb) v s⟩
    rw [memRead_key hi ha, Vector.getElem_set_self]
  · rw [writeRegister_block hi ha]
    refine ⟨fun _ => ?_, fun b hb => memRead_set_block_of_ne hi (ha ▸ hne hb) v s⟩
    rw [memRead_block hi ha, Vector.getElem_set_self]
  · rw [writeRegister_ignored ha]
    exact ⟨fun h => absurd h ha, fun _ _ => rfl⟩

end Sys2Proof.Machine
end

section
/-! PROOF. The step as a move of the total order (R60): which move it is, and who chooses. -/

namespace Sys2Proof.Machine

/-- The core's move of a busy core is its core step. -/
theorem makeMove_core_of_busy {s : State} (hb : busy s = true) : makeMove .core s = coreStep s := if_pos hb

/-- Settles O36: the three kinds of step are no move, the core's move and the host's. -/
theorem stepIsOneMove : Obligations.StepIsOneMove := by
  intro s t h
  obtain ⟨hb, hp, hs⟩ | ⟨hb, q, n, hs⟩ | ⟨a, rest, q, n, hp, hs⟩ := step_cases s
  · cases hs.symm.trans h
    exact .inl ⟨rfl, (busy_eq_false s).mp hb, hp⟩
  · have hmove := makeMove_core_of_busy (s := { s with sched := q, turn := n }) hb
    exact .inr (.inl ⟨q, n, (busy_eq_true s).mp hb, hmove.trans (hs.symm.trans h)⟩)
  · exact .inr (.inr ⟨a, rest, q, n, hp, hs.symm.trans h⟩)

/-- Past the end of the fixed order the free value chooses, and the choice is counted (log 1). -/
theorem chooseAgent_of_sched_nil {s : State} (hs : s.sched = []) :
    chooseAgent s = (if Config.coreMovesNext s.turn then .core else .host, { s with turn := s.turn + 1 }) := by
  rw [chooseAgent, hs]

/-- Settles O34: a contended step makes the move of the agent chosen. -/
theorem stepFollowsTheFreeChoice : Obligations.StepFollowsTheFreeChoice := by
  intro s a rest hop hp hs
  rw [step_contended s a rest hp ((busy_eq_true s).mpr hop), chooseAgent_of_sched_nil hs]
  cases hfree : Config.coreMovesNext s.turn with
  | true => rfl
  | false => rfl

end Sys2Proof.Machine
end

section
/-! PROOF. The two maps of 30_encoding.md (R72, R75): decoding and encoding undo each other, and the reserved words are R77's. -/

namespace Sys2Proof

/-! ### Format C -/

theorem toNat_commandRsv (v : BitVec 8) : (commandRsv v).toNat = v.toNat / 4 := by
  rw [commandRsv, BitVec.extractLsb'_toNat, Nat.shiftRight_eq_div_pow]
  omega

/-- R73: a byte past the four commands is rejected whatever its low bits. -/
theorem decodeCommand_reserved {v : BitVec 8} (h : 0x04 ≤ v.toNat) : decodeCommand v = .error .reservedCommand := by
  have hrsv : commandRsv v ≠ 0 := by
    intro h0
    have hz : v.toNat / 4 = 0 := by rw [← toNat_commandRsv, h0]; rfl
    omega
  exact if_pos hrsv

/-- A byte that decodes is one of the four commands. -/
theorem lt_four_of_decodeCommand {v : BitVec 8} {i : Instr} (h : decodeCommand v = .ok i) : v.toNat < 4 := by
  by_contra hv
  cases (decodeCommand_reserved (by omega)).symm.trans h

theorem encode_of_decodeCommand {v : BitVec 8} {i : Instr} (h : decodeCommand v = .ok i) :
    encode i = .command v ∧ i.wf = true := by
  have hv : v = 0 ∨ v = 1 ∨ v = 2 ∨ v = 3 := by
    have := lt_four_of_decodeCommand h
    bv_omega
  obtain rfl | rfl | rfl | rfl := hv <;> cases h <;> exact ⟨rfl, rfl⟩

/-! ### Format U -/

theorem toNat_microUopc (w : BitVec 10) : (microUopc w).toNat = w.toNat / 64 := by
  rw [microUopc, BitVec.extractLsb'_toNat, Nat.shiftRight_eq_div_pow]
  omega

theorem toNat_microArg (w : BitVec 10) : (microArg w).toNat = w.toNat % 64 := by
  rw [microArg, BitVec.extractLsb'_toNat, Nat.shiftRight_zero]

/-- A word is made of its two fields, its `UOPC` given as a number. -/
theorem microWordOf_fields {w : BitVec 10} {n : Nat} (h : (microUopc w).toNat = n) :
    microWordOf (BitVec.ofNat 4 n) (microArg w) = .micro w := by
  rw [microWordOf, ← h, BitVec.ofNat_toNat, BitVec.setWidth_eq, microUopc_append_microArg]

theorem withoutArgument_eq_ok {arg : BitVec 6} {i j : Instr} : withoutArgument arg i = .ok j ↔ arg = 0 ∧ i = j := by
  unfold withoutArgument
  split <;> simp_all

theorem withoutArgument_eq_error {arg : BitVec 6} {i : Instr} :
    (∃ err, withoutArgument arg i = .error err) ↔ arg.toNat ≠ 0 := by
  unfold withoutArgument
  split <;> simp_all [← BitVec.toNat_inj]

/-- A row of R75 with no argument: the word it decodes has the row's `UOPC` and `ARG` zero. -/
theorem encode_of_withoutArgument {w : BitVec 10} {i j : Instr} {n : Nat} (hu : (microUopc w).toNat = n)
    (hi : encode i = microWordOf (BitVec.ofNat 4 n) 0 ∧ i.wf = true) (h : withoutArgument (microArg w) i = .ok j) :
    encode j = .micro w ∧ j.wf = true := by
  obtain ⟨harg, rfl⟩ := withoutArgument_eq_ok.mp h
  rw [← microWordOf_fields hu, harg]
  exact hi

theorem encode_of_decodeMicro {w : BitVec 10} {i : Instr} (h : decodeMicro w = .ok i) :
    encode i = .micro w ∧ i.wf = true := by
  unfold decodeMicro at h
  dsimp only at h
  split at h
  case h_1 hu =>
    split at h <;> cases h
    rename_i harg
    exact ⟨microWordOf_fields hu, by simpa [Instr.wf] using harg⟩
  case h_2 hu =>
    split at h <;> cases h
    rename_i harg
    exact ⟨microWordOf_fields hu, by simpa [Instr.wf] using harg⟩
  case h_11 => cases h
  all_goals
    rename_i hu
    exact encode_of_withoutArgument hu ⟨rfl, rfl⟩ h

/-! ### Both formats -/

/-- Settles O2: the two fields of the encoded word are read back, and a legal argument passes the decoder's test. -/
theorem everyEncodedInstructionDecodesBack : Obligations.EveryEncodedInstructionDecodesBack := by
  intro i hw
  cases i with
  | kx arg =>
    have harg : 4 ≤ arg.toNat ∧ arg.toNat ≤ 43 := by simpa [Instr.wf] using hw
    simp [encode, microWordOf, decodeMicro, harg]
  | ark arg =>
    have harg : arg.toNat ≤ 10 := by simpa [Instr.wf] using hw
    simp [encode, microWordOf, decodeMicro, harg]
  | nop | expandKey | encryptBlock | decryptBlock => rfl
  | sb | sr | mc | isb | isr | imc | fin | finx => rfl

/-- Settles O3: format by format, each accepting branch of the decoder names the row it was read from. -/
theorem everyDecodedWordEncodesBack : Obligations.EveryDecodedWordEncodesBack := by
  intro e i h
  cases e with
  | command v => exact encode_of_decodeCommand h
  | micro w => exact encode_of_decodeMicro h

/-- Settles O1: the words of the two maps, and one reserved word of each format. -/
theorem wordsOfTheMapsDecode : Obligations.WordsOfTheMapsDecode := by
  unfold Obligations.WordsOfTheMapsDecode
  decide

/-- R77: `decodeMicro` rejects by the `UOPC`, by the argument of `KX` or `ARK`, or for an argument where there is none. -/
theorem decodeMicro_eq_error {w : BitVec 10} :
    (∃ err, decodeMicro w = .error err) ↔
      (w.toNat / 64 = 0 ∨ 0xB ≤ w.toNat / 64) ∨
      (w.toNat / 64 = 1 ∧ (w.toNat % 64 ≤ 3 ∨ 44 ≤ w.toNat % 64)) ∨
      (w.toNat / 64 = 2 ∧ 11 ≤ w.toNat % 64) ∨
      (3 ≤ w.toNat / 64 ∧ w.toNat / 64 ≤ 0xA ∧ w.toNat % 64 ≠ 0) := by
  unfold decodeMicro
  dsimp only
  split <;> rename_i hu
  case h_1 | h_2 =>
    rw [toNat_microUopc] at hu
    split <;> rename_i harg <;> rw [toNat_microArg] at harg
    · simp only [reduceCtorEq, exists_false, false_iff]
      omega
    · simp only [Except.error.injEq, exists_eq', true_iff]
      omega
  case h_11 =>
    simp only [toNat_microUopc, imp_false] at *
    simp only [Except.error.injEq, exists_eq', true_iff]
    omega
  all_goals
    rw [toNat_microUopc] at hu
    rw [withoutArgument_eq_error, toNat_microArg]
    omega

end Sys2Proof
end

section
/-! PROOF. The micro-programs as words: each decodes, each has a place, and every legal micro-operation stands in one. -/

namespace Sys2Proof.Machine

/-- A busy core has a micro-operation at every address. -/
theorem isSome_uop {op : Operation} (hop : op ≠ .idle) (upc : BitVec 7) : (uop op upc).isSome = true := by
  unfold uop
  dsimp only
  rw [if_neg hop]
  repeat' split
  all_goals rfl

theorem ne_idle_of_mem_microProgram {op : Operation} {w : BitVec 10} (hw : w ∈ microProgram op) : op ≠ .idle := by
  rintro rfl
  exact List.not_mem_nil hw

theorem length_microProgram_le (op : Operation) : (microProgram op).length ≤ 81 := by
  cases op <;> decide

/-- A word at index `n` of a micro-program stands at `UPC = n`: the indices fit in its seven bits. -/
theorem microWord_ofNat {op : Operation} {w : BitVec 10} {n : Nat} (h : (microProgram op)[n]? = some w) :
    microWord op (BitVec.ofNat 7 n) = some w := by
  obtain ⟨hn, -⟩ := List.getElem?_eq_some_iff.mp h
  have hupc : (BitVec.ofNat 7 n).toNat = n := Nat.mod_eq_of_lt (by have := length_microProgram_le op; omega)
  rw [microWord, hupc, h]

/-- What a core fetches is what the word at its place decodes to. -/
theorem decodeMicro_of_fetch {s : State} {w : BitVec 10} {i : Instr} (hw : microWord s.opr s.upc = some w) :
    fetch s = some i ↔ decodeMicro w = .ok i := by
  rw [fetch, hw]
  cases hd : decodeMicro w <;> simp [hd]

theorem exists_decodeMicro_of_mem {op : Operation} {w : BitVec 10} (hw : w ∈ microProgram op) :
    ∃ i, decodeMicro w = .ok i := by
  obtain ⟨n, hn⟩ := List.mem_iff_getElem?.mp hw
  obtain ⟨i, hi⟩ := Option.isSome_iff_exists.mp (isSome_uop (ne_idle_of_mem_microProgram hw) (BitVec.ofNat 7 n))
  have hfetch := fetch_eq_uop { State.reset with opr := op, upc := BitVec.ofNat 7 n }
  exact ⟨i, (decodeMicro_of_fetch (microWord_ofNat hn)).mp (hfetch.trans hi)⟩

/-- Settles O4: R77's list is where the decoder answers an error, and no micro-program holds a word of it. -/
theorem reservedMicroWordsRejectedAndAbsent : Obligations.ReservedMicroWordsRejectedAndAbsent :=
  ⟨fun _ => decodeMicro_eq_error, fun _ _ hw => exists_decodeMicro_of_mem hw⟩

/-! ### Places -/

/-- The first place of a word in a micro-program holds the word. -/
theorem microWord_of_placeIn {op : Operation} {w : BitVec 10} {p : Operation × BitVec 7} (h : placeIn op w = some p) :
    p.1 ≠ .idle ∧ microWord p.1 p.2 = some w := by
  unfold placeIn at h
  split at h
  case h_1 n hn =>
    cases h
    obtain ⟨hlt, hx, -⟩ := List.findIdx?_eq_some_iff_getElem.mp hn
    have hget : (microProgram op)[n]? = some w := by
      rw [List.getElem?_eq_getElem hlt, eq_of_beq hx]
    exact ⟨ne_idle_of_mem_microProgram (List.mem_of_getElem? hget), microWord_ofNat hget⟩
  case h_2 => cases h

theorem isSome_placeIn {op : Operation} {w : BitVec 10} (hw : w ∈ microProgram op) : (placeIn op w).isSome = true := by
  unfold placeIn
  split
  case h_1 => rfl
  case h_2 hn =>
    have hne := List.findIdx?_eq_none_iff.mp hn w hw
    simp at hne

/-- The place found for a word holds it. -/
theorem microWord_of_placeOf {w : BitVec 10} {p : Operation × BitVec 7} (h : placeOf w = some p) :
    p.1 ≠ .idle ∧ microWord p.1 p.2 = some w := by
  unfold placeOf at h
  split at h
  case h_1 hp =>
    cases h
    exact microWord_of_placeIn hp
  case h_2 =>
    split at h
    case h_1 hp =>
      cases h
      exact microWord_of_placeIn hp
    case h_2 => exact microWord_of_placeIn h

/-- Every word of a micro-program has a place. -/
theorem isSome_placeOf {op : Operation} {w : BitVec 10} (hw : w ∈ microProgram op) : (placeOf w).isSome = true := by
  unfold placeOf
  split
  case h_1 => rfl
  case h_2 hexp =>
    split
    case h_1 => rfl
    case h_2 henc =>
      cases op with
      | idle => exact absurd rfl (ne_idle_of_mem_microProgram hw)
      | expandKey => simpa [hexp] using isSome_placeIn hw
      | encryptBlock => simpa [henc] using isSome_placeIn hw
      | decryptBlock => exact isSome_placeIn hw

/-! ### Every legal micro-operation stands in a micro-program -/

/-- `KX 4` to `KX 43` are the words of the expansion. -/
theorem kxWord_mem : ∀ arg : BitVec 6, 4 ≤ arg.toNat → arg.toNat ≤ 43 → (0x1 : BitVec 4) ++ arg ∈ expansionWords := by
  decide

/-- `ARK 0` to `ARK 10` stand in the encryption. -/
theorem arkWord_mem : ∀ arg : BitVec 6, arg.toNat ≤ 10 → (0x2 : BitVec 4) ++ arg ∈ encryptWords := by
  decide

theorem exists_mem_microProgram {i : Instr} {w : BitVec 10} (hw : i.wf = true) (he : encode i = .micro w) :
    ∃ op, w ∈ microProgram op := by
  cases i with
  | nop | expandKey | encryptBlock | decryptBlock => cases he
  | kx arg =>
    have harg : 4 ≤ arg.toNat ∧ arg.toNat ≤ 43 := by simpa [Instr.wf] using hw
    cases he
    exact ⟨.expandKey, List.mem_append_left _ (kxWord_mem arg harg.1 harg.2)⟩
  | ark arg =>
    have harg : arg.toNat ≤ 10 := by simpa [Instr.wf] using hw
    cases he
    exact ⟨.encryptBlock, List.mem_append_right _ (arkWord_mem arg harg)⟩
  | sb | sr | mc | fin =>
    cases he
    exact ⟨.encryptBlock, List.mem_append_right _ (by decide)⟩
  | isb | isr | imc =>
    cases he
    exact ⟨.decryptBlock, List.mem_append_right _ (by decide)⟩
  | finx =>
    cases he
    exact ⟨.expandKey, List.mem_append_right _ (by decide)⟩

/-! ### The placed word and the step that runs it -/

theorem withFetchWord_command (s : State) (v : BitVec 8) : s.withFetchWord 8 v.toNat = placeWord (.command v) s := by
  have hv : encodedOfTable 8 v.toNat = some (.command v) := by
    rw [encodedOfTable, if_pos (by decide), if_pos v.isLt, BitVec.ofNat_toNat, BitVec.setWidth_eq]
  rw [State.withFetchWord, hv]

theorem withFetchWord_micro (s : State) (w : BitVec 10) : s.withFetchWord 16 w.toNat = placeWord (.micro w) s := by
  have hw : encodedOfTable 16 w.toNat = some (.micro w) := by
    rw [encodedOfTable, if_neg (by decide), if_pos w.isLt, BitVec.ofNat_toNat, BitVec.setWidth_eq]
  rw [State.withFetchWord, hw]

/-- The host writes the placed byte to `CMD` next, idle or busy, and the placing is gone from the state. -/
theorem step_placeWord_command (v : BitVec 8) (s : State) : step (placeWord (.command v) s) = command v s := by
  cases hb : busy s with
  | false =>
    simp only [placeWord, hb, Bool.false_eq_true, if_false]
    rw [step_host_alone _ (.write 0x00 v) s.pending (by rfl) (by exact hb)]
    exact hostWrite_cmd v s
  | true =>
    simp only [placeWord, hb, if_true]
    rw [step_contended _ (.write 0x00 v) s.pending (by rfl) (by exact hb)]
    exact hostWrite_cmd v s

/-- The core steps next at the place of the word, and the placing is gone from the state. -/
theorem step_placeWord_micro {w : BitVec 10} {op : Operation} {upc : BitVec 7} (hp : placeOf w = some (op, upc))
    (hop : op ≠ .idle) (s : State) : step (placeWord (.micro w) s) = coreStep { s with opr := op, upc := upc } := by
  have hb : busy { s with opr := op, upc := upc } = true := (busy_eq_true _).mpr hop
  unfold placeWord
  simp only [hp]
  split
  case isTrue hnil => exact step_core_alone _ hnil hb
  case isFalse hcons =>
    obtain ⟨a, rest, hpend⟩ := List.exists_cons_of_ne_nil hcons
    exact step_contended _ a rest hpend hb

/-- Settles O35: a command by the host's next write, a micro-operation by the core step at its word's place. -/
theorem placedWordIsRunNext : Obligations.PlacedWordIsRunNext := by
  intro i s hw
  have hdec : decode (encode i) = .ok i := everyEncodedInstructionDecodesBack i hw
  refine ⟨fun v he => ?_, fun w he => ?_⟩
  · rw [he, decode_command] at hdec
    rw [withFetchWord_command, step_placeWord_command, command_of_decode v s i hdec]
  · rw [he, decode_micro] at hdec
    obtain ⟨op', hmem⟩ := exists_mem_microProgram hw he
    obtain ⟨⟨op, upc⟩, hplace⟩ := Option.isSome_iff_exists.mp (isSome_placeOf hmem)
    obtain ⟨hop, hword⟩ := microWord_of_placeOf hplace
    refine ⟨op, upc, hplace, hop, hword, ?_⟩
    rw [withFetchWord_micro, step_placeWord_micro hplace hop]
    exact coreStep_of_fetch _ i ((decodeMicro_of_fetch hword).mpr hdec)

end Sys2Proof.Machine
end

section
/-! PROOF. What is dropped at `CMD` (R73) and what is refused of a micro-operation (R77). -/

namespace Sys2Proof.Machine

/-- Every command is dropped while busy. -/
theorem exec_command_of_busy {i : Instr} (hi : i.isCommand = true) {s : State} (hb : busy s = true) :
    exec i s = .next s := by
  cases i with
  | nop => rfl
  | expandKey | encryptBlock | decryptBlock => exact if_pos hb
  | kx | ark | sb | sr | mc | isb | isr | imc | fin | finx => cases hi

/-- Settles O7: a reserved byte does not decode, and a busy core drops every command. -/
theorem reservedAndBusyCommandsDropped : Obligations.ReservedAndBusyCommandsDropped := by
  have hwrite (v : Byte) (s : State) : hostAccess (.write 0x00 v) s = command v s := hostWrite_cmd v s
  refine ⟨fun v s hv => ?_, fun v s hop => ?_⟩
  · rw [hwrite, command, decodeCommand_reserved hv]
  · rw [hwrite, command]
    cases hd : decodeCommand v with
    | ok i => exact exec_command_of_busy (isCommand_of_decodeCommand hd) ((busy_eq_true s).mpr hop)
    | error err => rfl

/-- Settles O20: the arguments R77 reserves fail the test of `execKx` and `execArk`. -/
theorem reservedArgumentsRefused : Obligations.ReservedArgumentsRefused := by
  refine ⟨fun arg s h => ?_, fun arg s h => ?_⟩
  · have hn : ¬ (4 ≤ arg.toNat ∧ arg.toNat ≤ 43) := by omega
    exact dif_neg hn
  · have hn : ¬ arg.toNat ≤ 10 := by omega
    exact dif_neg hn

end Sys2Proof.Machine
end

section
/-! PROOF. The run of `ENCRYPT_BLOCK`, core step by core step: the expansion, the rounds and the end (R159, R161). -/

namespace Sys2Proof.Machine

/-! ### Core steps in a row -/

/-- One core step more. -/
theorem makeMoves_coreSteps_succ {n : Nat} {s t u : State} (h : makeMoves (coreSteps n) s = .next t)
    (hu : makeMove .core t = .next u) : makeMoves (coreSteps (n + 1)) s = .next u := by
  have hsplit : coreSteps (n + 1) = coreSteps n ++ [.core] := List.replicate_succ'
  rw [hsplit, makeMoves_append_next _ _ s t h, makeMoves_cons_next _ _ t u hu, makeMoves_nil]

/-- The state `s` moved on in its operation: `UPC` at `n`, the words in `xk` expanded so far and `S` transformed to `st`. -/
def atMicroStep (s : State) (n : Nat) (xk : ExpandedKey) (st : Block) : State :=
  { s with upc := BitVec.ofNat 7 n, xk, st }

theorem advance_atMicroStep (s : State) (n : Nat) (xk : ExpandedKey) (st : Block) :
    advance (atMicroStep s n xk st) = atMicroStep s (n + 1) xk st := by
  simp only [advance, atMicroStep, BitVec.ofNat_add]
  rfl

theorem coreStep_expansion {s : State} (hb : busy s = true) (hn : s.upc.toNat < 40) :
    coreStep s = .next (advance { s with xk := expandWord ⟨s.upc.toNat, hn⟩ s.xk }) := by
  have hl := lt_lastUpc_of_lt ((busy_eq_true s).mp hb) hn
  obtain ⟨_, hs⟩ | ⟨h, -⟩ | ⟨h, -⟩ | ⟨h, -⟩ := coreStep_cases hb hl.le
  · exact hs
  · omega
  · exact absurd h hl.ne
  · exact absurd h hl.ne

section
variable {s s₀ : State} {xk : ExpandedKey} {st : Block}

theorem makeMove_core_expansion (hb : busy s = true) {n : Nat} (hn : n < 40) :
    makeMove .core (atMicroStep s n xk st) = .next (atMicroStep s (n + 1) (expandWord ⟨n, hn⟩ xk) st) := by
  have hupc : (atMicroStep s n xk st).upc.toNat = n := Nat.mod_eq_of_lt (by omega)
  have hs := coreStep_expansion (s := atMicroStep s n xk st) hb (by omega)
  simp only [hupc] at hs
  rw [makeMove_core_of_busy (by exact hb), hs, ← advance_atMicroStep]
  rfl

/-- The first `n` core steps of an operation are the first `n` bodies of the expansion. -/
theorem makeMoves_expansion (hb : busy s = true) {n : Nat} (hn : n ≤ 40) :
    makeMoves (coreSteps n) (atMicroStep s 0 xk st) = .next (atMicroStep s n (expandWords n hn xk) st) := by
  induction n with
  | zero => rfl
  | succ n ih => exact makeMoves_coreSteps_succ (ih (by omega)) (makeMove_core_expansion hb hn)

/-- A core step at a round transform: `S <- f(S)` and the advance. -/
theorem makeMove_core_transform (hb : busy s = true) {n : Nat} {i : Instr} (hi : uop s.opr (BitVec.ofNat 7 n) = some i)
    {f : Block → Block} (hf : exec i (atMicroStep s n xk st) = transformState f (atMicroStep s n xk st)) :
    makeMove .core (atMicroStep s n xk st) = .next (atMicroStep s (n + 1) xk (f st)) := by
  have hfetch : fetch (atMicroStep s n xk st) = some i := (fetch_eq_uop _).trans hi
  rw [makeMove_core_of_busy (by exact hb), coreStep_of_fetch _ i hfetch, hf, ← advance_atMicroStep]
  rfl

/-- The core step at `FIN`: `S` latched into `OUT`, `S` and `XK` cleared, the operation ended. -/
theorem makeMove_core_fin (hb : busy s = true) {n : Nat} (hi : uop s.opr (BitVec.ofNat 7 n) = some .fin) :
    makeMove .core (atMicroStep s n xk st) = .next (endOperation
      { s with out := st, outv := true, st := Vector.replicate 16 0, xk := Vector.replicate 176 0 }) := by
  have hfetch : fetch (atMicroStep s n xk st) = some .fin := (fetch_eq_uop _).trans hi
  rw [makeMove_core_of_busy (by exact hb), coreStep_of_fetch _ _ hfetch]
  rfl

/-- `ARK r` in the middle of an operation. -/
theorem exec_ark_atMicroStep (n : Nat) {r : Nat} (hr : r < 11) :
    exec (.ark (BitVec.ofNat 6 r)) (atMicroStep s n xk st) =
      transformState (fun b => addRoundKey b xk ⟨r, hr⟩) (atMicroStep s n xk st) := by
  have harg : (BitVec.ofNat 6 r).toNat = r := Nat.mod_eq_of_lt (by omega)
  have hle : r ≤ 10 := by omega
  simp only [exec, execArk, harg, dif_pos hle]
  rfl

/-! ### The rounds of the encryption -/

/-- The four micro-operations of full round `r + 1` (R159, R161). -/
theorem uop_encryptRound : ∀ r : Fin 9,
    uop .encryptBlock (BitVec.ofNat 7 (41 + 4 * r.val)) = some .sb ∧
    uop .encryptBlock (BitVec.ofNat 7 (41 + 4 * r.val + 1)) = some .sr ∧
    uop .encryptBlock (BitVec.ofNat 7 (41 + 4 * r.val + 2)) = some .mc ∧
    uop .encryptBlock (BitVec.ofNat 7 (41 + 4 * r.val + 3)) = some (.ark (BitVec.ofNat 6 (r.val + 1))) := by
  decide

/-- The micro-operations before the full rounds and after them. -/
theorem uop_encryptEnds :
    uop .encryptBlock (BitVec.ofNat 7 40) = some (.ark (BitVec.ofNat 6 0)) ∧
    uop .encryptBlock (BitVec.ofNat 7 77) = some .sb ∧ uop .encryptBlock (BitVec.ofNat 7 78) = some .sr ∧
    uop .encryptBlock (BitVec.ofNat 7 79) = some (.ark (BitVec.ofNat 6 10)) ∧
    uop .encryptBlock (BitVec.ofNat 7 80) = some .fin := by
  decide

/-- The initial whitening and `r` full rounds, from the end of the expansion on. -/
theorem makeMoves_encryptRounds (hop : s.opr = .encryptBlock)
    (h : makeMoves (coreSteps 40) s₀ = .next (atMicroStep s 40 xk st)) {r : Nat} (hr : r ≤ 9) :
    makeMoves (coreSteps (41 + 4 * r)) s₀ = .next (atMicroStep s (41 + 4 * r) xk (encryptRounds xk st r hr)) := by
  have hb : busy s = true := by simp [busy, hop]
  induction r with
  | zero =>
    obtain ⟨hark, -⟩ := uop_encryptEnds
    rw [← hop] at hark
    exact (makeMoves_coreSteps_succ h (makeMove_core_transform hb hark (exec_ark_atMicroStep 40 (by omega))) :)
  | succ r ih =>
    obtain ⟨hsb, hsr, hmc, hark⟩ := uop_encryptRound ⟨r, hr⟩
    rw [← hop] at hsb hsr hmc hark
    have h1 := makeMoves_coreSteps_succ (ih (by omega)) (makeMove_core_transform hb hsb rfl)
    have h2 := makeMoves_coreSteps_succ h1 (makeMove_core_transform hb hsr rfl)
    have h3 := makeMoves_coreSteps_succ h2 (makeMove_core_transform hb hmc rfl)
    have hr11 : r + 1 < 11 := by omega
    exact (makeMoves_coreSteps_succ h3 (makeMove_core_transform hb hark (exec_ark_atMicroStep _ hr11)) :)

end

/-- The loop of R120 over a loaded key is `expand`, whatever the other bytes of `XK` were. -/
theorem expandWords_loadKey (k : Block) (xk : ExpandedKey) : expandWords 40 (by omega) (loadKey k xk) = expand k := by
  have hall {n : Nat} (hn : n ≤ 40) : AgreeBelow (16 + 4 * n) (expandWords n hn (loadKey k xk)) (expand k) := by
    induction n with
    | zero => exact expand_agreeBelow_loadKey k xk
    | succ n ih => exact expandWord_agreeBelow_expand ⟨n, hn⟩ (ih (by omega))
  exact (hall le_rfl).eq_of_all

/-- The 81 core steps of an accepted `ENCRYPT_BLOCK`: the block encrypted under the key is in `OUT`, readable (R165). -/
theorem makeMoves_encryptBlock {s : State} (hop : s.opr = .encryptBlock) (hupc : s.upc = 0) {k : Block}
    {xk : ExpandedKey} (hxk : s.xk = loadKey k xk) :
    makeMoves (coreSteps 81) s = .next (endOperation
      { s with out := encrypt s.st k, outv := true, st := Vector.replicate 16 0, xk := Vector.replicate 176 0 }) := by
  have hb : busy s = true := by simp [busy, hop]
  have hstart : atMicroStep s 0 (loadKey k xk) s.st = s := by
    have h0 : BitVec.ofNat 7 0 = s.upc := hupc.symm
    rw [atMicroStep, h0, ← hxk]
  have hexp := makeMoves_expansion (xk := loadKey k xk) (st := s.st) hb le_rfl
  rw [hstart, expandWords_loadKey] at hexp
  obtain ⟨-, hsb, hsr, hark, hfin⟩ := uop_encryptEnds
  rw [← hop] at hsb hsr hark hfin
  have h1 := makeMoves_coreSteps_succ (makeMoves_encryptRounds hop hexp le_rfl) (makeMove_core_transform hb hsb rfl)
  have h2 := makeMoves_coreSteps_succ h1 (makeMove_core_transform hb hsr rfl)
  have h3 := makeMoves_coreSteps_succ h2 (makeMove_core_transform hb hark (exec_ark_atMicroStep 79 (by omega)))
  refine makeMoves_coreSteps_succ h3 ?_
  exact makeMove_core_fin hb hfin

end Sys2Proof.Machine
end

section
/-! PROOF. A host program as moves (R80): the load of an operand, the read of `OUT`, and between them the whole encryption. -/

namespace Sys2Proof.Machine

theorem hostMoves_append (as bs : List HostAccess) : hostMoves (as ++ bs) = hostMoves as ++ hostMoves bs :=
  List.map_append

/-! ### Loading an operand -/

/-- A block register with a window of the port: a write at `base + i` sets its byte `i`, and nothing but the register. -/
structure OperandWindow (base : Byte) (get : State → Block) (put : State → Block → State) : Prop where
  write_eq : ∀ (i : Nat) (hi : i < 16) (v : Byte) (s : State),
    hostAccess (.write (base + BitVec.ofNat 8 i) v) s = .next (put s ((get s).set i v))
  get_put : ∀ (s : State) (b : Block), get (put s b) = b
  put_put : ∀ (s : State) (b c : Block), put (put s b) c = put s c
  put_get : ∀ s : State, put s (get s) = s

theorem keyWindow : OperandWindow 0x10 (fun s => s.key) (fun s key => { s with key }) where
  write_eq i hi v s := by
    have haddr : ((0x10 : Byte) + BitVec.ofNat 8 i).toNat = 0x10 + i := by bv_omega
    exact hostAccess_write (by omega) (writeRegister_key hi haddr v s)
  get_put _ _ := rfl
  put_put _ _ _ := rfl
  put_get _ := rfl

theorem blockWindow : OperandWindow 0x20 (fun s => s.block) (fun s block => { s with block }) where
  write_eq i hi v s := by
    have haddr : ((0x20 : Byte) + BitVec.ofNat 8 i).toNat = 0x20 + i := by bv_omega
    exact hostAccess_write (by omega) (writeRegister_block hi haddr v s)
  get_put _ _ := rfl
  put_put _ _ _ := rfl
  put_get _ := rfl

/-- The run of writes from offset `i` on fills the register with `x`, when it holds the bytes of `x` below `i` already. -/
theorem OperandWindow.makeMoves_writeRun {base : Byte} {get : State → Block} {put : State → Block → State}
    (hw : OperandWindow base get put) (x : Block) {i : Nat} (hi : i ≤ 16) {s : State}
    (hx : ∀ (j : Nat) (hj : j < i), (get s)[j] = x[j]) :
    makeMoves (hostMoves (writeRun base i (x.toList.drop i))) s = .next (put s x) := by
  induction hi using Nat.decreasingInduction generalizing s with
  | self =>
    have hfull : get s = x := Vector.ext hx
    have hnil : x.toList.drop 16 = [] := List.drop_of_length_le (by simp)
    rw [hnil, ← hfull, hw.put_get]
    rfl
  | of_succ i hi ih =>
    have hdrop : x.toList.drop i = x[i] :: x.toList.drop (i + 1) := by
      rw [List.drop_eq_getElem_cons (by simpa using hi), Vector.getElem_toList]
    have hmove : makeMove (.host (.write (base + BitVec.ofNat 8 i) x[i])) s = .next (put s ((get s).set i x[i])) :=
      hw.write_eq i hi x[i] s
    rw [hdrop, writeRun, hostMoves, List.map_cons, makeMoves_cons_next _ _ _ _ hmove]
    refine (ih fun j hj => ?_).trans (by rw [hw.put_put])
    rw [hw.get_put, Vector.getElem_set]
    split
    case isTrue h => subst h; rfl
    case isFalse h => exact hx j (by omega)

theorem OperandWindow.makeMoves_load {base : Byte} {get : State → Block} {put : State → Block → State}
    (hw : OperandWindow base get put) (x : Block) (s : State) :
    makeMoves (hostMoves (writeRun base 0 x.toList)) s = .next (put s x) :=
  hw.makeMoves_writeRun x (Nat.zero_le 16) (fun j hj => absurd hj (Nat.not_lt_zero j))

/-- `LOADKEY` (R80). -/
theorem makeMoves_loadKeyProgram (k : Block) (s : State) :
    makeMoves (hostMoves (loadKeyProgram k)) s = .next { s with key := k, keylen := 0x10 } := by
  rw [loadKeyProgram, hostMoves_append, makeMoves_append_next _ _ _ _ (keyWindow.makeMoves_load k s)]
  rfl

/-- `LOADBLK` (R80). -/
theorem makeMoves_loadBlkProgram (p : Block) (s : State) :
    makeMoves (hostMoves (loadBlkProgram p)) s = .next { s with block := p, blklen := 0x10 } := by
  rw [loadBlkProgram, hostMoves_append, makeMoves_append_next _ _ _ _ (blockWindow.makeMoves_load p s)]
  rfl

/-! ### Reading -/

/-- Reads in a row leave the core as it is, and append what the port shows of it to what the host has read. -/
theorem makeMoves_reads (as : List Byte) (s : State) :
    makeMoves (hostMoves (as.map .read)) s = .next { s with reads := s.reads ++ as.map fun a => (a, memRead a s) } := by
  induction as generalizing s with
  | nil => simp [hostMoves]
  | cons a as ih =>
    have hread (b : Byte) : memRead b (hostRead a s) = memRead b s := rfl
    have hmove : makeMove (.host (.read a)) s = .next (hostRead a s) := rfl
    refine (makeMoves_cons_next _ _ _ _ hmove).trans ((ih (hostRead a s)).trans ?_)
    simp only [hread, hostRead_reads, List.append_assoc, List.map_cons, List.singleton_append]
    rfl

/-- `READOUT` (R80) on a readable `OUT`: its sixteen bytes in order, each at its address. -/
theorem makeMoves_readOutProgram {s : State} (hv : s.outv = true) :
    makeMoves (hostMoves readOutProgram) s = .next { s with
      reads := s.reads ++ (List.finRange 16).map fun i => (BitVec.ofNat 8 (0x30 + i.val), s.out[i.val]) } := by
  have haddrs : readOutProgram = ((List.finRange 16).map fun i => BitVec.ofNat 8 (0x30 + i.val)).map .read := by decide
  have hbyte (i : Fin 16) : memRead (BitVec.ofNat 8 (0x30 + i.val)) s = s.out[i.val] := by
    rw [memRead_out i.isLt (toNat_windowAddress (by omega)), if_pos hv]
  rw [haddrs, makeMoves_reads, List.map_map]
  simp only [Function.comp_def, hbyte]

/-! ### The whole program -/

/-- `ENCRYPT_BLOCK` commanded in an idle core with both lengths 16, and its 81 core steps (R156, R165). -/
theorem makeMoves_encryptCommand {s : State} (hop : s.opr = .idle) (hk : s.keylen = 0x10) (hl : s.blklen = 0x10) :
    makeMoves (hostMoves (commandProgram 0x02) ++ coreSteps 81) s = .next (endOperation
      { startBlockOperation .encryptBlock s with
        out := encrypt s.block s.key, outv := true, st := Vector.replicate 16 0, xk := Vector.replicate 176 0 }) := by
  have hb : busy s = false := (busy_eq_false s).mpr hop
  have hlen : lengthsValid s = true := by rw [lengthsValid, hk, hl]; rfl
  have hexec : exec .encryptBlock s = .next (startBlockOperation .encryptBlock s) := by
    simp only [exec, execEncryptBlock, commandBlockOperation, hb, hlen]
    rfl
  have hmove : makeMove (.host (.write 0x00 0x02)) s = .next (startBlockOperation .encryptBlock s) := hexec
  exact (makeMoves_cons_next _ _ _ _ hmove).trans
    (makeMoves_encryptBlock (startBlockOperation_opr ..) (startBlockOperation_upc ..) (startBlockOperation_xk ..))

/-- Settles O56: the operands are loaded, the command and the core's 81 steps encrypt, and the host reads the result. -/
theorem encryptThroughThePort : Obligations.EncryptThroughThePort := by
  intro s k p hop
  have hkey := makeMoves_loadKeyProgram k s
  have hblock := makeMoves_loadBlkProgram p { s with key := k, keylen := 0x10 }
  have hrun := makeMoves_encryptCommand
    (s := { s with key := k, keylen := 0x10, block := p, blklen := 0x10 }) hop rfl rfl
  simp only [hostMoves_append, List.append_assoc]
  rw [makeMoves_append_next _ _ _ _ hkey, makeMoves_append_next _ _ _ _ hblock, ← List.append_assoc,
    makeMoves_append_next _ _ _ _ hrun, makeMoves_readOutProgram rfl]
  exact ⟨_, rfl, rfl⟩

end Sys2Proof.Machine
end

section
/-! PROOF. The byte multiplier as the product of the field (R102): a sum of partial products, and inverses. -/

namespace Sys2Proof.Machine

/-! ### `xtime` is additive (R103) -/

theorem xtime_eq (a : Byte) : xtime a = (a <<< 1) ^^^ (if a.getLsbD 7 then Config.reduction else 0#8) := rfl

@[simp] theorem xtime_zero : xtime 0#8 = 0#8 := by decide

/-- Whether two flags differ is the exclusive or of what they select. -/
theorem ite_xor_eq (x y : Bool) (r : Byte) :
    (if (x ^^ y) = true then r else 0#8) = (if x = true then r else 0#8) ^^^ (if y = true then r else 0#8) := by
  cases x <;> cases y <;> simp

theorem xtime_xor (a b : Byte) : xtime (a ^^^ b) = xtime a ^^^ xtime b := by
  rw [xtime_eq, xtime_eq a, xtime_eq b, BitVec.shiftLeft_xor_distrib, BitVec.getLsbD_xor, ite_xor_eq]
  ac_rfl

/-! ### The loop as a sum -/

/-- The sum of the first `n` partial products: what the loop of R102 has in `acc` after `n` iterations. -/
def partialProduct (a b : Byte) : Nat → Byte
  | 0 => 0#8
  | n + 1 => partialProduct a b n ^^^ (if b.getLsbD n then xtime^[n] a else 0#8)

theorem partialProduct_succ (a b : Byte) (n : Nat) :
    partialProduct a b (n + 1) = partialProduct a b n ^^^ (if b.getLsbD n then xtime^[n] a else 0#8) := rfl

theorem foldl_gmulIteration (a b : Byte) (n : Nat) :
    (List.range n).foldl (gmulIteration b) (0#8, a) = (partialProduct a b n, xtime^[n] a) := by
  induction n with
  | zero => rfl
  | succ n ih =>
    rw [List.range_succ, List.foldl_append, ih, Function.iterate_succ_apply', partialProduct_succ]
    cases h : b.getLsbD n <;> simp [gmulIteration, gadd, h]

theorem gmul_eq_partialProduct (a b : Byte) : gmul a b = partialProduct a b 8 :=
  congrArg Prod.fst (foldl_gmulIteration a b 8)

theorem partialProduct_xor (a b c : Byte) (n : Nat) :
    partialProduct a (b ^^^ c) n = partialProduct a b n ^^^ partialProduct a c n := by
  induction n with
  | zero => simp [partialProduct]
  | succ n ih =>
    simp only [partialProduct_succ, ih, BitVec.getLsbD_xor, ite_xor_eq]
    ac_rfl

theorem gmul_xor (a b c : Byte) : gmul a (b ^^^ c) = gmul a b ^^^ gmul a c := by
  simp only [gmul_eq_partialProduct, partialProduct_xor]

theorem gmul_zero : ∀ a : Byte, gmul a 0#8 = 0#8 := by decide

/-! ### Shifting the second factor -/

theorem partialProduct_shiftLeft_one (a b : Byte) {n : Nat} (hn : n < 8) :
    partialProduct a (b <<< 1) (n + 1) = xtime (partialProduct a b n) := by
  induction n with
  | zero => simp [partialProduct]
  | succ n ih =>
    rw [partialProduct_succ, ih (by omega), partialProduct_succ, xtime_xor, apply_ite xtime, xtime_zero,
      Function.iterate_succ_apply', BitVec.getLsbD_shiftLeft]
    simp [hn]

/-- The reduction constant stands for `x ^ 8` (R100). -/
theorem gmul_reduction : ∀ a : Byte, gmul a Config.reduction = xtime^[8] a := by decide

theorem gmul_xtime (a b : Byte) : gmul a (xtime b) = xtime (gmul a b) := by
  have hlow : gmul a (b <<< 1) = xtime (partialProduct a b 7) := by
    rw [gmul_eq_partialProduct, partialProduct_shiftLeft_one a b (by omega)]
  have hhigh : gmul a (if b.getLsbD 7 then Config.reduction else 0#8) =
      xtime (if b.getLsbD 7 then xtime^[7] a else 0#8) := by
    rw [apply_ite (gmul a), apply_ite xtime, gmul_zero, xtime_zero, gmul_reduction, Function.iterate_succ_apply']
  calc gmul a (xtime b)
      = gmul a (b <<< 1) ^^^ gmul a (if b.getLsbD 7 then Config.reduction else 0#8) := by rw [xtime_eq, gmul_xor]
    _ = xtime (partialProduct a b 8) := by rw [hlow, hhigh, ← xtime_xor, ← partialProduct_succ]
    _ = xtime (gmul a b) := by rw [gmul_eq_partialProduct]

/-! ### Associativity and inverses -/

theorem gmul_partialProduct (a b c : Byte) (n : Nat) :
    gmul a (partialProduct b c n) = partialProduct (gmul a b) c n := by
  induction n with
  | zero => exact gmul_zero a
  | succ n ih =>
    have hpow : gmul a (xtime^[n] b) = xtime^[n] (gmul a b) :=
      Function.Semiconj.iterate_right (gmul_xtime a) n b
    rw [partialProduct_succ, gmul_xor, ih, apply_ite (gmul a), gmul_zero, hpow, partialProduct_succ]

theorem gmul_assoc (a b c : Byte) : gmul (gmul a b) c = gmul a (gmul b c) := by
  rw [gmul_eq_partialProduct b c, gmul_partialProduct, gmul_eq_partialProduct]

theorem gmul_one : ∀ a : Byte, gmul a 0x01 = a := by decide

theorem one_gmul : ∀ a : Byte, gmul 0x01 a = a := by decide

theorem zero_gmul : ∀ a : Byte, gmul 0x00 a = 0x00 := by decide

/-- A left inverse `u` of `a` is the one right inverse of `a`. -/
theorem eq_of_gmul_eq_one {a t u : Byte} (hu : gmul u a = 0x01) (ht : gmul a t = 0x01) : t = u :=
  calc t = gmul (gmul u a) t := by rw [hu, one_gmul]
    _ = gmul u (gmul a t) := gmul_assoc u a t
    _ = u := by rw [ht, gmul_one]

end Sys2Proof.Machine
end

section
/-! PROOF. The three ROMs (R91 to R93): each table against the rule that generates it. -/

namespace Sys2Proof.Machine

/-! ### `SBOX` (R91) -/

/-- The affine map of R91. -/
def affineImage (t : Byte) : Byte :=
  t ^^^ t.rotateLeft 1 ^^^ t.rotateLeft 2 ^^^ t.rotateLeft 3 ^^^ t.rotateLeft 4 ^^^ 0x63

/-- The inverse of the affine map of R91. -/
def affinePreimage (s : Byte) : Byte := s.rotateLeft 1 ^^^ s.rotateLeft 3 ^^^ s.rotateLeft 6 ^^^ 0x05

theorem affineImage_affinePreimage : ∀ s : Byte, affineImage (affinePreimage s) = s := by decide

/-- The literal table, read back through the affine map, holds an inverse of every byte but zero. -/
theorem affinePreimage_substitute_gmul :
    ∀ a : Byte, a ≠ 0x00 → gmul (affinePreimage (substitute a)) a = 0x01 := by decide

theorem affinePreimage_substitute_zero : affinePreimage (substitute 0x00) = 0x00 := by decide

/-- Settles O41: the inverse is unique, so it is the byte the table's entry is the affine image of. -/
theorem sboxIsAffineOfInverse : Obligations.SboxIsAffineOfInverse := by
  intro a t h
  have ht : t = affinePreimage (substitute a) := by
    rcases h with ⟨rfl, rfl⟩ | hinv
    · exact affinePreimage_substitute_zero.symm
    · have ha : a ≠ 0x00 := by
        rintro rfl
        rw [zero_gmul] at hinv
        exact absurd hinv (by decide)
      exact eq_of_gmul_eq_one (affinePreimage_substitute_gmul a ha) hinv
  rw [ht]
  exact (affineImage_affinePreimage (substitute a)).symm

/-! ### `INV_SBOX` (R92) -/

/-- R92's definition of the contents of `INV_SBOX`, checked entry by entry. -/
theorem inverseSubstitute_substitute : Function.LeftInverse inverseSubstitute substitute := by
  unfold Function.LeftInverse
  decide

/-- Settles O40: `INV_SBOX` undoes `SBOX`, and on the finite set of bytes the other composition follows. -/
theorem substitutionTablesAreInverse : Obligations.SubstitutionTablesAreInverse := fun b =>
  ⟨inverseSubstitute_substitute b, inverseSubstitute_substitute.rightInverse_of_card_le le_rfl b⟩

/-! ### `RCON` (R93) -/

/-- Settles O42: entry by entry; the open entry 0 is not read. -/
theorem roundConstantsArePowers : Obligations.RoundConstantsArePowers := by
  have hnext : ∀ j : Fin 9,
      roundConstant ⟨j.val + 2, by omega⟩ = gmul (roundConstant ⟨j.val + 1, by omega⟩) 0x02 := by decide
  exact ⟨rfl, hnext⟩

end Sys2Proof.Machine
end

section
/-! PROOF. The laws of the byte multiplier (R102) and its six constant forms (R103 to R105). -/

namespace Sys2Proof.Machine

/-! ### The first factor: additivity and commutativity -/

theorem iterate_xtime_xor (n : Nat) (a b : Byte) : xtime^[n] (a ^^^ b) = xtime^[n] a ^^^ xtime^[n] b :=
  Function.Semiconj₂.iterate (op := (· ^^^ ·)) xtime_xor n a b

theorem xor_partialProduct (a b c : Byte) (n : Nat) :
    partialProduct (a ^^^ b) c n = partialProduct a c n ^^^ partialProduct b c n := by
  induction n with
  | zero => simp [partialProduct]
  | succ n ih =>
    simp only [partialProduct_succ, ih, iterate_xtime_xor]
    cases c.getLsbD n
    · simp
    · simp only [if_true]
      ac_rfl

theorem xor_gmul (a b c : Byte) : gmul (a ^^^ b) c = gmul a c ^^^ gmul b c := by
  simp only [gmul_eq_partialProduct, xor_partialProduct]

theorem partialProduct_xtime (a b : Byte) (n : Nat) :
    partialProduct (xtime a) b n = xtime (partialProduct a b n) := by
  induction n with
  | zero => exact xtime_zero.symm
  | succ n ih =>
    rw [partialProduct_succ, ih, partialProduct_succ, xtime_xor, apply_ite xtime, xtime_zero,
      Function.Commute.self_iterate xtime n a]

theorem xtime_gmul (a b : Byte) : gmul (xtime a) b = xtime (gmul a b) := by
  simp only [gmul_eq_partialProduct, partialProduct_xtime]

/-- The mirror image of `gmul_partialProduct`: a sum of partial products as the first factor. -/
theorem partialProduct_gmul (a b c : Byte) (n : Nat) :
    gmul (partialProduct a c n) b = partialProduct (gmul a b) c n := by
  induction n with
  | zero => exact zero_gmul b
  | succ n ih =>
    have hzero : gmul 0#8 b = 0#8 := zero_gmul b
    have hpow : gmul (xtime^[n] a) b = xtime^[n] (gmul a b) :=
      Function.Semiconj.iterate_right (f := (gmul · b)) (xtime_gmul · b) n a
    rw [partialProduct_succ, xor_gmul, ih, apply_ite (gmul · b), hzero, hpow, partialProduct_succ]

theorem gmul_right_comm (a b c : Byte) : gmul (gmul a c) b = gmul (gmul a b) c := by
  rw [gmul_eq_partialProduct a c, partialProduct_gmul, gmul_eq_partialProduct (gmul a b)]

theorem gmul_comm (a b : Byte) : gmul a b = gmul b a :=
  calc gmul a b = gmul (gmul 0x01 a) b := by rw [one_gmul]
    _ = gmul (gmul 0x01 b) a := gmul_right_comm 0x01 b a
    _ = gmul b a := by rw [one_gmul]

/-! ### The inverse of a byte but zero -/

/-- The inverse is the byte that the entry of `SBOX` is the affine image of (R91). -/
theorem gmul_affinePreimage_substitute {a : Byte} (ha : a ≠ 0x00) :
    gmul a (affinePreimage (substitute a)) = 0x01 :=
  (gmul_comm a _).trans (affinePreimage_substitute_gmul a ha)

/-- Settles O43: the product is a sum of partial products, linear in both factors; the inverses are read from `SBOX`. -/
theorem multiplierLaws : Obligations.MultiplierLaws :=
  ⟨gmul_comm, fun a => ⟨gmul_one a, gmul_zero a, zero_gmul a⟩, gmul_xor, gmul_assoc, fun a ha =>
    ⟨affinePreimage (substitute a), gmul_affinePreimage_substitute ha,
      fun _ hu => eq_of_gmul_eq_one (affinePreimage_substitute_gmul a ha) hu⟩⟩

/-! ### The constant multipliers (R105) -/

theorem gmul_two (a : Byte) : gmul a 0x02 = xtime a :=
  calc gmul a 0x02 = gmul a (xtime 0x01) := rfl
    _ = xtime a := by rw [gmul_xtime, gmul_one]

theorem gmul_four (a : Byte) : gmul a 0x04 = xtime (xtime a) :=
  calc gmul a 0x04 = gmul a (xtime 0x02) := rfl
    _ = xtime (xtime a) := by rw [gmul_xtime, gmul_two]

theorem gmul_eight (a : Byte) : gmul a 0x08 = xtime (xtime (xtime a)) :=
  calc gmul a 0x08 = gmul a (xtime 0x04) := rfl
    _ = xtime (xtime (xtime a)) := by rw [gmul_xtime, gmul_four]

/-- Settles O44: each constant is a sum of powers of 0x02, over which the product distributes. -/
theorem constantMultipliersByXtime : Obligations.ConstantMultipliersByXtime := by
  intro a
  refine ⟨(gmul_two a).symm, gmul_two a, ?mul3, ?mul9, ?mulB, ?mulD, ?mulE⟩
  case mul3 =>
    calc mul3 a = gmul a (0x02 ^^^ 0x01) := rfl
      _ = _ := by rw [gmul_xor, gmul_two, gmul_one]
  case mul9 =>
    calc mul9 a = gmul a (0x08 ^^^ 0x01) := rfl
      _ = _ := by rw [gmul_xor, gmul_eight, gmul_one]
  case mulB =>
    calc mulB a = gmul a (0x08 ^^^ 0x02 ^^^ 0x01) := rfl
      _ = _ := by rw [gmul_xor, gmul_xor, gmul_eight, gmul_two, gmul_one]
  case mulD =>
    calc mulD a = gmul a (0x08 ^^^ 0x04 ^^^ 0x01) := rfl
      _ = _ := by rw [gmul_xor, gmul_xor, gmul_eight, gmul_four, gmul_one]
  case mulE =>
    calc mulE a = gmul a (0x08 ^^^ 0x04 ^^^ 0x02) := rfl
      _ = _ := by rw [gmul_xor, gmul_xor, gmul_eight, gmul_four, gmul_two]

end Sys2Proof.Machine
end

section
/-! PROOF. The key schedule (R120 to R125): what each byte of a word is, for `KX` and for the expansion, and who changes `XK` after. -/

namespace Sys2Proof.Machine

/-! ### A word of the expansion byte by byte -/

theorem getElem_xorWord (a b : Word) (j : Fin 4) : (xorWord a b)[j.val] = a[j.val] ^^^ b[j.val] :=
  match j with
  | 0 | 1 | 2 | 3 => rfl

/-- The value `temp` at a multiple of 4: the previous word rotated, substituted and, in its first byte, with the constant added. -/
theorem getElem_scheduleTemp_of_dvd {n : Fin 40} (h : (n.val + 4) % 4 = 0) (prev : Word) (j : Fin 4) :
    (scheduleTemp n prev)[j.val] =
      if j.val = 0 then substitute prev[1] ^^^ roundConstant ⟨(n.val + 4) / 4, by omega⟩
      else substitute prev[(j.val + 1) % 4] := by
  rw [scheduleTemp, if_pos h]
  match j with
  | 0 | 1 | 2 | 3 => rfl

/-- The four bytes `KX` writes (R123), in the words of `XK` as it was. -/
theorem getElem_expandWord_same (n : Fin 40) (xk : ExpandedKey) (j : Fin 4) :
    (expandWord n xk)[4 * (n.val + 4) + j.val] = xk[4 * n.val + j.val] ^^^
      (if (n.val + 4) % 4 = 0 then
        (if j.val = 0 then substitute xk[4 * (n.val + 3) + 1] ^^^ roundConstant ⟨(n.val + 4) / 4, by omega⟩
        else substitute xk[4 * (n.val + 3) + (j.val + 1) % 4])
      else xk[4 * (n.val + 3) + j.val]) := by
  have hword : (4 * (n.val + 4) + j.val) / 4 = n.val + 4 := by omega
  have hoffset : (4 * (n.val + 4) + j.val) % 4 = j.val := by omega
  simp only [getElem_expandWord, if_pos hword, hoffset, getElem_xorWord, getElem_xkWord]
  by_cases h : (n.val + 4) % 4 = 0
  · simp only [if_pos h, getElem_scheduleTemp_of_dvd h, getElem_xkWord]
  · simp only [if_neg h, scheduleTemp, getElem_xkWord]

/-- Every byte outside word `n + 4` is left as it was. -/
theorem getElem_expandWord_other (n : Fin 40) (xk : ExpandedKey) {k : Nat} (hk : k < 176)
    (h : k < 4 * (n.val + 4) ∨ 4 * (n.val + 4) + 4 ≤ k) : (expandWord n xk)[k] = xk[k] := by
  rw [getElem_expandWord, if_neg (by omega)]

/-! ### `KX` (R123) -/

theorem encode_kx : ∀ n : Fin 40,
    encode (.kx (BitVec.ofNat 6 (n.val + 4))) = .micro (BitVec.ofNat 10 (0x040 + (n.val + 4))) := by
  decide

theorem exec_kx_ofNat (n : Fin 40) (s : State) :
    exec (.kx (BitVec.ofNat 6 (n.val + 4))) s = .next (advance { s with xk := expandWord n s.xk }) := by
  have harg : (BitVec.ofNat 6 (n.val + 4)).toNat = n.val + 4 := Nat.mod_eq_of_lt (by omega)
  rw [exec_kx (by omega)]
  simp [harg]

/-- Settles O13: `KX` is one body of the expansion, whose four bytes and whose frame are known. -/
theorem kxComputesOneWord : Obligations.KxComputesOneWord := by
  intro n s
  have hbyte := getElem_expandWord_same n s.xk
  refine ⟨encode_kx n, _, exec_kx_ofNat n s, rfl, fun _ hk h => getElem_expandWord_other n s.xk hk h, fun h => ?_,
    fun h j => ?_⟩
  · simp only [if_pos h] at hbyte
    exact ⟨hbyte 0, hbyte 1, hbyte 2, hbyte 3⟩
  · simp only [if_neg h] at hbyte
    exact hbyte j

/-! ### The expansion (R120, R124) -/

/-- Each byte of a word of the expansion is the byte that a further run of the word's body would write. -/
theorem getElem_expand_word (n : Fin 40) (k : Block) (j : Fin 4) :
    (expand k)[4 * (n.val + 4) + j.val] = (expandWord n (expand k))[4 * (n.val + 4) + j.val] :=
  (expandWord_agreeBelow_expand n (.refl _ (expand k)) ⟨4 * (n.val + 4) + j.val, by omega⟩ (by simp only; omega)).symm

/-- Settles O45: the key stays in the first bytes, and every word is a fixed point of its own body. -/
theorem expansionRecurrence : Obligations.ExpansionRecurrence := by
  intro k
  refine ⟨fun i => ?_, fun n j => ?_⟩
  · have hkey := expand_agreeBelow_loadKey k (Vector.replicate 176 0) ⟨i.val, by omega⟩ i.isLt
    rw [← hkey, getElem_loadKey, dif_pos i.isLt]
  · rw [getElem_expand_word, getElem_expandWord_same]

theorem loadKey_roundKey_zero (xk : ExpandedKey) : loadKey (roundKey 0 xk) xk = xk := by
  ext k hk
  rw [getElem_loadKey]
  split
  · simp
  · rfl

/-- Settles O46: the forty steps are the loop of R120 over `XK`, which is `XK` with its own round key 0 loaded. -/
theorem fortyStepsExpandTheKey : Obligations.FortyStepsExpandTheKey := by
  intro s hb hupc
  have hexpand : expandWords 40 le_rfl s.xk = expand (roundKey 0 s.xk) := by
    rw [← expandWords_loadKey _ s.xk, loadKey_roundKey_zero]
  have hstart : atMicroStep s 0 s.xk s.st = s := by
    have h0 : BitVec.ofNat 7 0 = s.upc := hupc.symm
    rw [atMicroStep, h0]
  have hrun := makeMoves_expansion (xk := s.xk) (st := s.st) hb le_rfl
  rw [hstart, hexpand] at hrun
  exact hrun

/-! ### After the expansion (R125) -/

/-- From the last assigned address on stands the micro-operation that ends the operation (R159, log 5). -/
theorem uop_of_lastUpc_le {op : Operation} {upc : BitVec 7} (hop : op ≠ .idle) (h : lastUpc op ≤ upc.toNat) :
    uop op upc = some (if op = .expandKey then .finx else .fin) := by
  unfold uop
  dsimp only
  cases op with
  | idle => exact absurd rfl hop
  | expandKey =>
    have h40 : 40 ≤ upc.toNat := h
    simp [show ¬ upc.toNat ≤ 39 by omega]
  | encryptBlock | decryptBlock =>
    have h80 : 80 ≤ upc.toNat := h
    rw [if_neg hop, if_neg (by omega), if_neg (by decide), if_neg (by omega), if_neg (by omega), if_neg (by omega),
      if_neg (by omega), if_neg (by omega)]
    rfl

/-- Settles O25: below the last address only transforms of `S` follow the expansion, and of the two ends `FINX` keeps `XK`. -/
theorem expandedKeyImmutableAfterConstruction : Obligations.ExpandedKeyImmutableAfterConstruction := by
  intro s t hb h40 h
  by_cases hl : s.upc.toNat < lastUpc s.opr
  · obtain ⟨i, hi, ht, hw⟩ := uop_transform s.opr s.upc h40 hl
    obtain ⟨f, hf⟩ := exec_transform ht hw s
    rw [coreStep_of_fetch s i ((fetch_eq_uop s).trans hi), hf] at h
    cases h
    exact .inl rfl
  · have hend := uop_of_lastUpc_le ((busy_eq_true s).mp hb) (Nat.le_of_not_lt hl)
    rw [← fetch_eq_uop] at hend
    by_cases hop : s.opr = .expandKey
    · rw [if_pos hop] at hend
      rw [coreStep_of_fetch s _ hend] at h
      cases h
      exact .inl rfl
    · rw [if_neg hop] at hend
      exact .inr hend

end Sys2Proof.Machine
end

section
/-! PROOF. The round transforms (R130 to R138): the micro-operations byte by byte, the two matrices and their laws, and the
inverse pairs. -/

namespace Sys2Proof.Machine

/-- Extensionality over `Fin`, the index type of the offset tables and of the matrices. -/
theorem ext_fin {n : Nat} {a b : Vector Byte n} (h : ∀ k : Fin n, a[k.val] = b[k.val]) : a = b :=
  Vector.ext fun k hk => h ⟨k, hk⟩

/-! ### The transforms that act on each byte alone (R130, R131, R136) -/

theorem encode_ark : ∀ r : Fin 11, encode (.ark (BitVec.ofNat 6 r.val)) = .micro (BitVec.ofNat 10 (0x080 + r.val)) := by
  decide

theorem exec_ark_ofNat (r : Fin 11) (s : State) :
    exec (.ark (BitVec.ofNat 6 r.val)) s = transformState (fun b => addRoundKey b s.xk r) s := by
  have hs : atMicroStep s s.upc.toNat s.xk s.st = s := by simp [atMicroStep]
  simpa only [hs] using exec_ark_atMicroStep (s := s) (xk := s.xk) (st := s.st) s.upc.toNat r.isLt

/-- Settles O14: `ARK` is a transform of `S`, and the round key is read in the layout of the state. -/
theorem arkXorsRoundKey : Obligations.ArkXorsRoundKey := fun r s =>
  ⟨encode_ark r, _, exec_ark_ofNat r s, rfl, fun k => getElem_addRoundKey s.st s.xk r k.val k.isLt⟩

/-- Settles O15: `SB` and `ISB` are transforms of `S`, known byte by byte. -/
theorem substitutionsActOnEveryByte : Obligations.SubstitutionsActOnEveryByte := fun s =>
  ⟨⟨rfl, _, rfl, rfl, fun k => getElem_subBytes s.st k.val k.isLt⟩,
    ⟨rfl, _, rfl, rfl, fun k => getElem_invSubBytes s.st k.val k.isLt⟩⟩

theorem invSubBytes_subBytes (s : Block) : invSubBytes (subBytes s) = s := by
  ext k hk : 1
  rw [getElem_invSubBytes, getElem_subBytes, (substitutionTablesAreInverse s[k]).1]

theorem subBytes_invSubBytes (s : Block) : subBytes (invSubBytes s) = s := by
  ext k hk : 1
  rw [getElem_subBytes, getElem_invSubBytes, (substitutionTablesAreInverse s[k]).2]

theorem addRoundKey_addRoundKey (s : Block) (xk : ExpandedKey) (r : Fin 11) :
    addRoundKey (addRoundKey s xk r) xk r = s := by
  ext k hk : 1
  rw [getElem_addRoundKey, getElem_addRoundKey, BitVec.xor_assoc, BitVec.xor_self, BitVec.xor_zero]

/-! ### The transforms that move bytes (R132, R133, R138) -/

theorem srOffsets_eq : ∀ k : Fin 16, (srOffsets[k.val]).val = 4 * ((k.val / 4 + k.val % 4) % 4) + k.val % 4 := by decide

theorem isrOffsets_eq :
    ∀ k : Fin 16, (isrOffsets[k.val]).val = 4 * ((k.val / 4 + 4 - k.val % 4) % 4) + k.val % 4 := by decide

theorem getElem_shiftRows_srOffsets (s : Block) (k : Fin 16) : (shiftRows s)[k.val] = s[(srOffsets[k.val]).val] := by
  simp only [getElem_shiftRows, srOffsets_eq]

theorem getElem_invShiftRows_isrOffsets (s : Block) (k : Fin 16) :
    (invShiftRows s)[k.val] = s[(isrOffsets[k.val]).val] := by
  simp only [getElem_invShiftRows, isrOffsets_eq]

/-- Settles O16: the written-out permutations are the row rotations of the two transforms. -/
theorem shiftRowsPermutesOffsets : Obligations.ShiftRowsPermutesOffsets := fun s =>
  ⟨⟨rfl, _, rfl, rfl, getElem_shiftRows_srOffsets s.st⟩, ⟨rfl, _, rfl, rfl, getElem_invShiftRows_isrOffsets s.st⟩⟩

theorem srOffsets_isrOffsets : ∀ k : Fin 16, srOffsets[(isrOffsets[k.val]).val] = k := by decide

theorem isrOffsets_srOffsets : ∀ k : Fin 16, isrOffsets[(srOffsets[k.val]).val] = k := by decide

theorem invShiftRows_shiftRows (s : Block) : invShiftRows (shiftRows s) = s := by
  refine ext_fin fun k => ?_
  simp only [getElem_invShiftRows_isrOffsets, getElem_shiftRows_srOffsets, srOffsets_isrOffsets]

theorem shiftRows_invShiftRows (s : Block) : shiftRows (invShiftRows s) = s := by
  refine ext_fin fun k => ?_
  simp only [getElem_shiftRows_srOffsets, getElem_invShiftRows_isrOffsets, isrOffsets_srOffsets]

theorem shiftRows_subBytes (s : Block) : shiftRows (subBytes s) = subBytes (shiftRows s) := by
  ext k hk : 1
  simp only [getElem_shiftRows, getElem_subBytes]

theorem invShiftRows_invSubBytes (s : Block) : invShiftRows (invSubBytes s) = invSubBytes (invShiftRows s) := by
  ext k hk : 1
  simp only [getElem_invShiftRows, getElem_invSubBytes]

/-- Settles O49: where a byte goes does not depend on its value, nor its substitute on its place. -/
theorem substitutionAndRotationCommute : Obligations.SubstitutionAndRotationCommute :=
  ⟨shiftRows_subBytes, invShiftRows_invSubBytes⟩

/-! ### A word as a column vector, times a matrix over the field (R134, R135) -/

/-- The sum of four bytes in the field. -/
def fieldSum (f : Fin 4 → Byte) : Byte := f 0 ^^^ f 1 ^^^ f 2 ^^^ f 3

theorem fieldSum_xor (f g : Fin 4 → Byte) : fieldSum (fun j => f j ^^^ g j) = fieldSum f ^^^ fieldSum g := by
  simp only [fieldSum]
  ac_rfl

theorem gmul_fieldSum (a : Byte) (f : Fin 4 → Byte) : gmul a (fieldSum f) = fieldSum fun j => gmul a (f j) := by
  simp only [fieldSum, gmul_xor]

theorem fieldSum_gmul (f : Fin 4 → Byte) (b : Byte) : gmul (fieldSum f) b = fieldSum fun j => gmul (f j) b := by
  simp only [fieldSum, xor_gmul]

theorem fieldSum_comm (f : Fin 4 → Fin 4 → Byte) :
    (fieldSum fun j => fieldSum fun k => f j k) = fieldSum fun k => fieldSum fun j => f j k := by
  simp only [fieldSum]
  ac_rfl

/-- The product of the matrix `m`, given by its entries, with the column `a`. -/
def matrixTimes (m : Fin 4 → Fin 4 → Byte) (a : Word) : Word :=
  Vector.ofFn fun r => fieldSum fun j => gmul a[j.val] (m r j)

/-- The product of two matrices over the field. -/
def matrixMul (m n : Fin 4 → Fin 4 → Byte) (r k : Fin 4) : Byte := fieldSum fun j => gmul (n j k) (m r j)

/-- The identity matrix. -/
def matrixOne (r k : Fin 4) : Byte := if r = k then 0x01 else 0#8

theorem getElem_matrixTimes (m : Fin 4 → Fin 4 → Byte) (a : Word) (r : Fin 4) :
    (matrixTimes m a)[r.val] = fieldSum fun j => gmul a[j.val] (m r j) := by
  simp [matrixTimes]

theorem matrixTimes_xorWord (m : Fin 4 → Fin 4 → Byte) (a b : Word) :
    matrixTimes m (xorWord a b) = xorWord (matrixTimes m a) (matrixTimes m b) :=
  ext_fin fun r => by simp only [getElem_xorWord, getElem_matrixTimes, xor_gmul, fieldSum_xor]

theorem matrixTimes_matrixTimes (m n : Fin 4 → Fin 4 → Byte) (a : Word) :
    matrixTimes m (matrixTimes n a) = matrixTimes (matrixMul m n) a := by
  refine ext_fin fun r => ?_
  calc (matrixTimes m (matrixTimes n a))[r.val]
      = fieldSum fun j => fieldSum fun k => gmul a[k.val] (gmul (n j k) (m r j)) := by
        simp only [getElem_matrixTimes, fieldSum_gmul, gmul_assoc]
    _ = fieldSum fun k => fieldSum fun j => gmul a[k.val] (gmul (n j k) (m r j)) := fieldSum_comm _
    _ = (matrixTimes (matrixMul m n) a)[r.val] := by simp only [getElem_matrixTimes, matrixMul, gmul_fieldSum]

theorem matrixTimes_matrixOne (a : Word) : matrixTimes matrixOne a = a := by
  refine ext_fin fun r => ?_
  simp only [getElem_matrixTimes, matrixOne, apply_ite (gmul _), gmul_one, gmul_zero]
  match r with
  | 0 | 1 | 2 | 3 => simp [fieldSum]

theorem matrixTimes_replicate {m : Fin 4 → Fin 4 → Byte} (hm : ∀ r, fieldSum (m r) = 0x01) (v : Byte) :
    matrixTimes m (Vector.replicate 4 v) = Vector.replicate 4 v := by
  refine ext_fin fun r => ?_
  simp only [getElem_matrixTimes, Vector.getElem_replicate, ← gmul_fieldSum, hm, gmul_one]

/-! ### The two matrices (R134, R135) -/

theorem mixColumn_eq (a : Word) : mixColumn a = matrixTimes (rotatedEntry mixRow) a := by
  refine ext_fin fun r => ?_
  have hone (b : Byte) : gmul b 1#8 = b := gmul_one b
  rw [getElem_matrixTimes]
  match r with
  | 0 | 1 | 2 | 3 => simp [mixColumn, fieldSum, rotatedEntry, mixRow, hone]

theorem invMixColumn_eq (a : Word) : invMixColumn a = matrixTimes (rotatedEntry invMixRow) a := by
  refine ext_fin fun r => ?_
  rw [getElem_matrixTimes]
  match r with
  | 0 | 1 | 2 | 3 => rfl

theorem matrixMul_invMixRow_mixRow : matrixMul (rotatedEntry invMixRow) (rotatedEntry mixRow) = matrixOne := by decide

theorem matrixMul_mixRow_invMixRow : matrixMul (rotatedEntry mixRow) (rotatedEntry invMixRow) = matrixOne := by decide

theorem fieldSum_mixRow : ∀ r : Fin 4, fieldSum (rotatedEntry mixRow r) = 0x01 := by decide

theorem fieldSum_invMixRow : ∀ r : Fin 4, fieldSum (rotatedEntry invMixRow r) = 0x01 := by decide

theorem invMixColumn_mixColumn (a : Word) : invMixColumn (mixColumn a) = a := by
  rw [mixColumn_eq, invMixColumn_eq, matrixTimes_matrixTimes, matrixMul_invMixRow_mixRow, matrixTimes_matrixOne]

theorem mixColumn_invMixColumn (a : Word) : mixColumn (invMixColumn a) = a := by
  rw [mixColumn_eq, invMixColumn_eq, matrixTimes_matrixTimes, matrixMul_mixRow_invMixRow, matrixTimes_matrixOne]

/-! ### A column transform on the whole block -/

theorem getElem_mapColumns_column (f : Word → Word) (s : Block) (c r : Fin 4) :
    (mapColumns f s)[4 * c.val + r.val] = (f (column c s))[r.val] := by
  have hcolumn : (4 * c.val + r.val) / 4 = c.val := by omega
  have hoffset : (4 * c.val + r.val) % 4 = r.val := by omega
  simp only [getElem_mapColumns, hcolumn, hoffset]

theorem column_mapColumns (f : Word → Word) (s : Block) (c : Fin 4) : column c (mapColumns f s) = f (column c s) :=
  ext_fin fun r => by rw [getElem_column, getElem_mapColumns_column]

theorem column_xorBlock (a b : Block) (c : Fin 4) : column c (xorBlock a b) = xorWord (column c a) (column c b) :=
  ext_fin fun r => by rw [getElem_xorWord, getElem_column, getElem_column, getElem_column, getElem_xorBlock]

theorem block_ext_column {a b : Block} (h : ∀ c : Fin 4, column c a = column c b) : a = b := by
  ext k hk : 1
  have hbyte := congrArg (fun w : Word => w[k % 4]) (h ⟨k / 4, by omega⟩)
  simpa only [getElem_column, Nat.div_add_mod] using hbyte

theorem mapColumns_leftInverse {f g : Word → Word} (h : ∀ a, g (f a) = a) (s : Block) :
    mapColumns g (mapColumns f s) = s :=
  block_ext_column fun c => by rw [column_mapColumns, column_mapColumns, h]

theorem mapColumns_xorBlock {f : Word → Word} (h : ∀ a b, f (xorWord a b) = xorWord (f a) (f b)) (a b : Block) :
    mapColumns f (xorBlock a b) = xorBlock (mapColumns f a) (mapColumns f b) :=
  block_ext_column fun c => by
    rw [column_mapColumns, column_xorBlock, h, column_xorBlock, column_mapColumns, column_mapColumns]

theorem getElem_mapColumns_matrixTimes {f : Word → Word} {m : Fin 4 → Fin 4 → Byte} (hf : ∀ a, f a = matrixTimes m a)
    (s : Block) (c r : Fin 4) :
    (mapColumns f s)[4 * c.val + r.val] = fieldSum fun j => gmul s[4 * c.val + j.val] (m r j) := by
  simp only [getElem_mapColumns_column, hf, getElem_matrixTimes, getElem_column]

/-- Settles O17: both transforms are, on each column, the product with the matrix of the rotated rows. -/
theorem mixColumnsIsTheMatrixProduct : Obligations.MixColumnsIsTheMatrixProduct := fun s =>
  ⟨⟨rfl, _, rfl, rfl, getElem_mapColumns_matrixTimes mixColumn_eq s.st⟩,
    ⟨rfl, _, rfl, rfl, getElem_mapColumns_matrixTimes invMixColumn_eq s.st⟩⟩

theorem mixColumn_xorWord (a b : Word) : mixColumn (xorWord a b) = xorWord (mixColumn a) (mixColumn b) := by
  simp only [mixColumn_eq, matrixTimes_xorWord]

theorem invMixColumn_xorWord (a b : Word) :
    invMixColumn (xorWord a b) = xorWord (invMixColumn a) (invMixColumn b) := by
  simp only [invMixColumn_eq, matrixTimes_xorWord]

/-- Settles O48: a matrix product is linear, and in both matrices the entries of every row add up to 0x01. -/
theorem mixColumnsLinear : Obligations.MixColumnsLinear :=
  ⟨mapColumns_xorBlock mixColumn_xorWord, mapColumns_xorBlock invMixColumn_xorWord, fun v =>
    ⟨(mixColumn_eq _).trans (matrixTimes_replicate fieldSum_mixRow v),
      (invMixColumn_eq _).trans (matrixTimes_replicate fieldSum_invMixRow v)⟩⟩

/-- Settles O47: the tables, the permutations and the matrices are inverse to each other, and a byte added twice cancels. -/
theorem transformsAreInversePairs : Obligations.TransformsAreInversePairs :=
  ⟨fun s => ⟨invSubBytes_subBytes s, subBytes_invSubBytes s⟩,
    fun s => ⟨invShiftRows_shiftRows s, shiftRows_invShiftRows s⟩,
    fun s => ⟨mapColumns_leftInverse invMixColumn_mixColumn s, mapColumns_leftInverse mixColumn_invMixColumn s⟩,
    addRoundKey_addRoundKey⟩

end Sys2Proof.Machine
end

section
/-! PROOF. The two ciphers undo each other (R150 to R152): run one after the other, they pass the same states between rounds. -/

namespace Sys2Proof.Machine

theorem encryptRounds_succ (w : ExpandedKey) (p : Block) {n : Nat} (h : n + 1 ≤ 9) :
    encryptRounds w p (n + 1) h =
      addRoundKey (mixColumns (shiftRows (subBytes (encryptRounds w p n (by omega))))) w ⟨n + 1, by omega⟩ := rfl

/-- A round of `decrypt` by the number of its round key. -/
theorem decryptRounds_succ (w : ExpandedKey) (c : Block) {n m : Nat} (h : n + 1 + m = 9) :
    decryptRounds w c (n + 1) (by omega) =
      invMixColumns
        (addRoundKey (invSubBytes (invShiftRows (decryptRounds w c n (by omega)))) w ⟨m + 1, by omega⟩) := by
  have hkey : 9 - n = m + 1 := by omega
  simp only [decryptRounds, hkey]

theorem invSubBytes_invShiftRows_shiftRows_subBytes (s : Block) :
    invSubBytes (invShiftRows (shiftRows (subBytes s))) = s := by
  rw [invShiftRows_shiftRows, invSubBytes_subBytes]

theorem shiftRows_subBytes_invSubBytes_invShiftRows (s : Block) :
    shiftRows (subBytes (invSubBytes (invShiftRows s))) = s := by
  rw [subBytes_invSubBytes, shiftRows_invShiftRows]

theorem invMixColumns_mixColumns (s : Block) : invMixColumns (mixColumns s) = s :=
  mapColumns_leftInverse invMixColumn_mixColumn s

theorem mixColumns_invMixColumns (s : Block) : mixColumns (invMixColumns s) = s :=
  mapColumns_leftInverse mixColumn_invMixColumn s

/-- The rounds of `decrypt` on what `encrypt` ends with: after `n` of them, `encrypt` after its first `9 - n`, substituted and
shifted. -/
theorem decryptRounds_encryptRounds (w : ExpandedKey) (p : Block) {n m : Nat} (h : n + m = 9) :
    decryptRounds w (addRoundKey (shiftRows (subBytes (encryptRounds w p 9 le_rfl))) w 10) n (by omega) =
      shiftRows (subBytes (encryptRounds w p m (by omega))) := by
  induction n generalizing m with
  | zero =>
    obtain rfl : m = 9 := by omega
    exact addRoundKey_addRoundKey _ w 10
  | succ n ih =>
    rw [decryptRounds_succ w _ h, ih (m := m + 1) (by omega), invSubBytes_invShiftRows_shiftRows_subBytes,
      encryptRounds_succ, addRoundKey_addRoundKey, invMixColumns_mixColumns]

/-- The rounds of `encrypt` on what `decrypt` ends with: after `n` of them, `decrypt` after its first `9 - n`, shifted and
substituted back. -/
theorem encryptRounds_decryptRounds (w : ExpandedKey) (c : Block) {n m : Nat} (h : n + m = 9) :
    encryptRounds w (addRoundKey (invSubBytes (invShiftRows (decryptRounds w c 9 le_rfl))) w 0) n (by omega) =
      invSubBytes (invShiftRows (decryptRounds w c m (by omega))) := by
  induction n generalizing m with
  | zero =>
    obtain rfl : m = 9 := by omega
    exact addRoundKey_addRoundKey _ w 0
  | succ n ih =>
    rw [encryptRounds_succ, ih (m := m + 1) (by omega), shiftRows_subBytes_invSubBytes_invShiftRows,
      decryptRounds_succ w c (n := m) (m := n) (by omega), mixColumns_invMixColumns, addRoundKey_addRoundKey]

theorem decrypt_encrypt (p k : Block) : decrypt (encrypt p k) k = p := by
  have hrounds := decryptRounds_encryptRounds (expand k) p (n := 9) (m := 0) rfl
  rw [decrypt, encrypt]
  rw [hrounds, invSubBytes_invShiftRows_shiftRows_subBytes]
  exact addRoundKey_addRoundKey p (expand k) 0

theorem encrypt_decrypt (c k : Block) : encrypt (decrypt c k) k = c := by
  have hrounds := encryptRounds_decryptRounds (expand k) c (n := 9) (m := 0) rfl
  rw [encrypt, decrypt]
  rw [hrounds, shiftRows_subBytes_invSubBytes_invShiftRows]
  exact addRoundKey_addRoundKey c (expand k) 10

/-- Settles O50: each round of one cipher undoes a round of the other. -/
theorem decryptUndoesEncrypt : Obligations.DecryptUndoesEncrypt := fun p k => ⟨decrypt_encrypt p k, encrypt_decrypt p k⟩

end Sys2Proof.Machine
end

section
/-! PROOF. The commands at the port (R153 to R157): what each makes of an idle core, and the step that runs a pending one. -/

namespace Sys2Proof.Machine

theorem lengthsValid_iff (s : State) : lengthsValid s = true ↔ s.keylen = 16 ∧ s.blklen = 16 := by
  simp [lengthsValid, Config.declaredLength]

/-! ### Commands of an idle core -/

theorem exec_expandKey_of_idle {s : State} (hop : s.opr = .idle) :
    exec .expandKey s = .next (startOperation .expandKey s) :=
  if_neg (by rw [(busy_eq_false s).mpr hop]; decide)

theorem exec_of_blockCommand {i : Instr} {op : Operation} (hc : BlockCommand i op) (s : State) :
    exec i s = commandBlockOperation op s := by
  cases hc <;> rfl

/-- An idle core rejects a block operation on its lengths alone, and else accepts it. -/
theorem exec_blockCommand_of_idle {i : Instr} {op : Operation} (hc : BlockCommand i op) {s : State} (hop : s.opr = .idle) :
    exec i s = if s.keylen ≠ 16 ∨ s.blklen ≠ 16 then .next (raiseInvalidInputLength s)
      else .next (startBlockOperation op s) := by
  have hb : busy s = false := (busy_eq_false s).mpr hop
  have hlen : (s.keylen ≠ 16 ∨ s.blklen ≠ 16) ↔ ¬ lengthsValid s = true := by rw [lengthsValid_iff, not_and_or]
  rw [exec_of_blockCommand hc, commandBlockOperation, if_neg (by simp [hb]), if_congr hlen rfl rfl, ite_not]

theorem exec_blockCommand_accepted {i : Instr} {op : Operation} (hc : BlockCommand i op) {s : State} (hop : s.opr = .idle)
    (hk : s.keylen = 16) (hl : s.blklen = 16) : exec i s = .next (startBlockOperation op s) := by
  rw [exec_blockCommand_of_idle hc hop, if_neg (by simp [hk, hl])]

theorem getElem_loadKey_low (key : Block) (xk : ExpandedKey) (i : Fin 16) : (loadKey key xk)[i.val] = key[i.val] := by
  rw [getElem_loadKey, dif_pos i.isLt]

theorem getElem_loadKey_high (key : Block) (xk : ExpandedKey) {k : Nat} (h : k < 176) (hk : 16 ≤ k) :
    (loadKey key xk)[k] = xk[k] := by
  rw [getElem_loadKey, dif_neg (by omega)]

/-- Settles O9: the acceptance loads the key and starts the operation. -/
theorem expandKeyAccepted : Obligations.ExpandKeyAccepted := fun s hop =>
  ⟨startOperation .expandKey s, exec_expandKey_of_idle hop, getElem_loadKey_low s.key s.xk,
    fun _ h => getElem_loadKey_high s.key s.xk h, rfl⟩

/-- The acceptance of a block operation, every register written out (R156, R157). -/
theorem startBlockOperation_eq (op : Operation) (s : State) :
    startBlockOperation op s =
      { s with st := s.block, xk := loadKey s.key s.xk, opr := op, upc := 0,
               done := false, err := false, errcode := 0x00, xkv := false, outv := false } := by
  simp only [startBlockOperation, startOperation, clearReport, errNone]

/-- What `BlockOperationsAccepted` says of one of the two commands. -/
theorem blockOperation_accepted {i : Instr} {op : Operation} (hc : BlockCommand i op) {s : State} (hop : s.opr = .idle)
    (hk : s.keylen = 16) (hl : s.blklen = 16) :
    ∃ t, exec i s = .next t ∧ (∀ j : Fin 16, t.xk[j.val] = s.key[j.val]) ∧
      (∀ (k : Nat) (h : k < 176), 16 ≤ k → t.xk[k] = s.xk[k]) ∧
      t = { s with st := s.block, xk := t.xk, opr := op, upc := 0,
                   done := false, err := false, errcode := 0x00, xkv := false, outv := false } := by
  refine ⟨_, (exec_blockCommand_accepted hc hop hk hl).trans (congrArg _ (startBlockOperation_eq op s)),
    fun j => ?_, fun k h hk => ?_, rfl⟩
  · exact getElem_loadKey_low s.key s.xk j
  · exact getElem_loadKey_high s.key s.xk h hk

/-- Settles O10: both commands accept alike, each naming its operation. -/
theorem blockOperationsAccepted : Obligations.BlockOperationsAccepted := fun _ hop hk hl =>
  ⟨blockOperation_accepted .encrypt hop hk hl, blockOperation_accepted .decrypt hop hk hl⟩

/-! ### The byte written to `CMD` -/

/-- A write to `CMD` of the byte of a command runs it. -/
theorem hostAccess_command {v : Byte} {i : Instr} (h : decodeCommand v = .ok i) (s : State) :
    hostAccess (.write 0x00 v) s = exec i s :=
  (hostWrite_cmd v s).trans (command_of_decode v s i h)

/-- Settles O6: the byte of `NOP` decodes to it, and its meaning is no change. -/
theorem nopChangesNothing : Obligations.NopChangesNothing := fun s => ⟨rfl, rfl, hostAccess_command (v := 0x00) rfl s⟩

/-- The command bytes in the order of R153; every other byte is reserved. -/
theorem commandByte_cases (v : Byte) : v = 0x00 ∨ v = 0x01 ∨ v = 0x02 ∨ v = 0x03 ∨ 0x04 ≤ v.toNat := by bv_omega

/-- Settles O8: a busy core drops the byte, an idle one runs the command it decodes to, a reserved byte is dropped. -/
theorem commandWriteOutcome : Obligations.CommandWriteOutcome := by
  intro v s
  obtain ⟨hreserved, hbusy⟩ := reservedAndBusyCommandsDropped
  by_cases hop : s.opr = .idle
  case neg => rw [if_pos hop, hbusy v s hop]
  rw [if_neg (not_not.mpr hop)]
  obtain rfl | rfl | rfl | rfl | hv := commandByte_cases v
  · exact hostAccess_command (v := 0x00) rfl s
  · rw [hostAccess_command (v := 0x01) rfl, exec_expandKey_of_idle hop]
    rfl
  · rw [hostAccess_command (v := 0x02) rfl, exec_blockCommand_of_idle .encrypt hop, startBlockOperation_eq]
    rfl
  · rw [hostAccess_command (v := 0x03) rfl, exec_blockCommand_of_idle .decrypt hop, startBlockOperation_eq]
    rfl
  · have hne {w : Byte} (hw : w.toNat < 4) : v ≠ w := by rintro rfl; omega
    have hblock : ¬ (v = 0x02 ∨ v = 0x03) := not_or.mpr ⟨hne (by decide), hne (by decide)⟩
    rw [hreserved v s hv, if_neg (hne (w := 0x00) (by decide)), if_neg (hne (w := 0x01) (by decide)), if_neg hblock]

/-! ### The step -/

/-- Settles O32: the host's move is the write of the byte to `CMD`, alone or chosen first. -/
theorem stepRunsPendingCommand : Obligations.StepRunsPendingCommand := by
  intro s v rest i hp hd
  refine ⟨fun hop => ?_, fun q hop hs => ?_⟩
  · rw [step_host_alone s _ rest hp ((busy_eq_false s).mpr hop)]
    exact hostAccess_command hd _
  · rw [step_contended s _ rest hp ((busy_eq_true s).mpr hop), chooseAgent, hs]
    exact hostAccess_command hd _

/-- Settles O33: the core's move is the micro-operation its word decodes to, alone or chosen first. -/
theorem stepRunsFetchedMicroOperation : Obligations.StepRunsFetchedMicroOperation := by
  intro s w i hop hw hd
  have hb : busy s = true := (busy_eq_true s).mpr hop
  have hf : fetch s = some i := (decodeMicro_of_fetch hw).mpr hd
  refine ⟨fun hp => ?_, fun a rest q hp hs => ?_⟩
  · rw [step_core_alone s hp hb, coreStep_of_fetch s i hf]
  · rw [step_contended s a rest hp hb, chooseAgent, hs]
    exact coreStep_of_fetch { s with sched := q } i hf

end Sys2Proof.Machine
end

section
/-! PROOF. The micro-operations in their places (R159 to R164): what a busy core fetches, and the two that end an operation. -/

namespace Sys2Proof

/-- A word of format U is no command. -/
theorem isCommand_of_encode_micro {i : Instr} {w : BitVec 10} (h : encode i = .micro w) : i.isCommand = false := by
  cases i with
  | nop | expandKey | encryptBlock | decryptBlock => cases h
  | kx | ark | sb | sr | mc | isb | isr | imc | fin | finx => rfl

namespace Machine

/-- What a core fetches is a legal micro-operation. -/
theorem micro_of_fetch {s : State} {i : Instr} (h : fetch s = some i) : i.wf = true ∧ i.isCommand = false := by
  cases hw : microWord s.opr s.upc with
  | none =>
    rw [fetch, hw] at h
    cases h
  | some w =>
    obtain ⟨henc, hwf⟩ := encode_of_decodeMicro ((decodeMicro_of_fetch hw).mp h)
    exact ⟨hwf, isCommand_of_encode_micro henc⟩

/-- Settles O5: the listings and the formula are one map, and every word of it is a micro-operation. -/
theorem coreStepExecutesUop : Obligations.CoreStepExecutesUop := by
  intro s hb
  obtain ⟨i, hi⟩ := Option.isSome_iff_exists.mp (isSome_uop ((busy_eq_true s).mp hb) s.upc)
  have hf : fetch s = some i := (fetch_eq_uop s).trans hi
  obtain ⟨hwf, hmicro⟩ := micro_of_fetch hf
  exact ⟨i, hi, hf, hwf, hmicro, coreStep_of_fetch s i hf⟩

/-! ### The two ends -/

/-- On the assigned addresses an end is fetched at the last one only, and which end is the operation's. -/
theorem fetch_end_iff {s : State} (hb : busy s = true) (hu : s.upc.toNat ≤ lastUpc s.opr) {i : Instr}
    (hi : i = .fin ∨ i = .finx) :
    fetch s = some i ↔ s.upc.toNat = lastUpc s.opr ∧ i = if s.opr = .expandKey then .finx else .fin := by
  have hne {j : Instr} (hf : fetch s = some j) (hj : j ≠ .fin ∧ j ≠ .finx) : fetch s ≠ some i := by
    rintro h
    cases hf.symm.trans h
    exact hi.elim hj.1 hj.2
  obtain hl | hl := hu.lt_or_eq
  · refine iff_of_false ?_ fun h => hl.ne h.1
    by_cases hk : s.upc.toNat < 40
    · exact hne (fetch_expansion hb hk) (by simp)
    · obtain ⟨j, hj, ht, -⟩ := uop_transform s.opr s.upc (by omega) hl
      have hend : j ≠ .fin ∧ j ≠ .finx := by constructor <;> rintro rfl <;> cases ht
      exact hne ((fetch_eq_uop s).trans hj) hend
  · rw [fetch_last hb hl, Option.some_inj]
    exact ⟨fun h => ⟨hl, h.symm⟩, fun h => h.2.symm⟩

theorem fetch_of_idle {s : State} (hop : s.opr = .idle) : fetch s = none := by
  rw [fetch_eq_uop, hop]
  rfl

theorem fetch_fin_iff {s : State} (hu : s.upc.toNat ≤ lastUpc s.opr) : fetch s = some .fin ↔ s.upc.toNat = 80 := by
  by_cases hop : s.opr = .idle
  · rw [hop] at hu
    have h0 : s.upc.toNat ≤ 0 := hu
    rw [fetch_of_idle hop]
    exact iff_of_false (nomatch ·) (by omega)
  rw [fetch_end_iff ((busy_eq_true s).mpr hop) hu (.inl rfl)]
  cases h : s.opr with
  | idle => exact absurd h hop
  | expandKey =>
    rw [h] at hu
    have h40 : s.upc.toNat ≤ 40 := hu
    exact iff_of_false (fun hf => nomatch hf.2) (by omega)
  | encryptBlock | decryptBlock => simp [lastUpc]

theorem fetch_finx_iff {s : State} (hu : s.upc.toNat ≤ lastUpc s.opr) :
    fetch s = some .finx ↔ s.opr = .expandKey ∧ s.upc.toNat = 40 := by
  by_cases hop : s.opr = .idle
  · rw [fetch_of_idle hop, hop]
    simp
  rw [fetch_end_iff ((busy_eq_true s).mpr hop) hu (.inr rfl)]
  cases h : s.opr with
  | idle => exact absurd h hop
  | expandKey => simp [lastUpc]
  | encryptBlock | decryptBlock => simp

/-- Settles O18: `FIN` as the model writes it, and its place as the end of a block operation. -/
theorem finLatchesAndReleases : Obligations.FinLatchesAndReleases :=
  ⟨fun _ => ⟨rfl, _, rfl, fun k => ⟨rfl, Vector.getElem_replicate k.isLt⟩, fun k => Vector.getElem_replicate k.isLt, rfl⟩,
    fun _ hu => fetch_fin_iff hu⟩

/-- Settles O19: `FINX` as the model writes it, and its place as the end of `EXPAND_KEY`. -/
theorem finxShowsExpandedKey : Obligations.FinxShowsExpandedKey := ⟨fun _ => ⟨rfl, rfl⟩, fun _ hu => fetch_finx_iff hu⟩

/-! ### What a micro-operation does not read (R158) -/

/-- The state with the operand registers of `h`, the accesses `p` still to be made and the reads `r` received: what the host
changes by an access that is no reset and no command. -/
def withHost (s h : State) (p : List HostAccess) (r : List (Byte × Byte)) : State :=
  { s with key := h.key, block := h.block, keylen := h.keylen, blklen := h.blklen, pending := p, reads := r }

section
variable {i : Instr} {s t : State} (h : State) (p : List HostAccess) (r : List (Byte × Byte))

theorem exec_withHost (hi : i.isCommand = false) (he : exec i s = .next t) :
    exec i (withHost s h p r) = .next (withHost t h p r) := by
  cases i with
  | nop | expandKey | encryptBlock | decryptBlock => cases hi
  | kx arg =>
    have harg : 4 ≤ arg.toNat ∧ arg.toNat ≤ 43 := by simpa [Instr.wf] using wf_of_exec he
    cases (exec_kx harg s).symm.trans he
    exact exec_kx harg _
  | ark arg =>
    have harg : arg.toNat ≤ 10 := of_decide_eq_true (wf_of_exec he)
    simp only [exec, execArk, dif_pos harg] at he ⊢
    cases he
    rfl
  | sb | sr | mc | isb | isr | imc | fin | finx =>
    cases he
    rfl

theorem coreStep_withHost (hs : coreStep s = .next t) : coreStep (withHost s h p r) = .next (withHost t h p r) := by
  cases hf : fetch s with
  | none =>
    rw [coreStep, hf] at hs
    cases hs
  | some i =>
    rw [coreStep_of_fetch s i hf] at hs
    have hf' : fetch (withHost s h p r) = some i := hf
    rw [coreStep_of_fetch _ i hf', exec_withHost h p r (micro_of_fetch hf).2 hs]

end

/-- Settles O24: the effect with other operands is the effect, the other operands put in. -/
theorem microOperationsReadNoOperand : Obligations.MicroOperationsReadNoOperand := by
  intro i s t k b kl bl hi he
  obtain ⟨-, ⟨hp, hr, -⟩, -⟩ := onlyTheNamedInstructionsWrite i s t he
  have hother := exec_withHost { s with key := k, block := b, keylen := kl, blklen := bl } s.pending s.reads hi he
  simpa only [withHost, hp, hr] using hother

end Machine
end Sys2Proof
end

section
/-! PROOF. An operation among host accesses (R168): with no reset, the host changes its own registers and nothing of the run. -/

namespace Sys2Proof.Machine

/-! ### One host access beside a running operation -/

/-- A register write reaches the operand registers alone, and reads none but the one it writes. -/
theorem writeRegister_withHost (a v : Byte) (s h : State) (p : List HostAccess) (r : List (Byte × Byte)) :
    writeRegister a v (withHost s h p r) = withHost s (writeRegister a v h) p r := by
  obtain rfl | rfl | ⟨i, hi, ha⟩ | ⟨i, hi, ha⟩ | ha := operandAddress_cases a
  · rfl
  · rfl
  · simp only [writeRegister_key hi ha]
    rfl
  · simp only [writeRegister_block hi ha]
    rfl
  · simp only [writeRegister_ignored ha]

/-- A write beside a running operation is a register write: a command is dropped, and `CMD` is no operand register. -/
theorem hostAccess_write_withHost {s : State} (hb : busy s = true) (a v : Byte) (h : State) (p : List HostAccess)
    (r : List (Byte × Byte)) :
    hostAccess (.write a v) (withHost s h p r) = .next (withHost s (writeRegister a v h) p r) := by
  by_cases ha : a = 0x00
  · subst ha
    rw [writeRegister_ignored (by unfold OperandAddress; decide)]
    exact reservedAndBusyCommandsDropped.2 v _ ((busy_eq_true s).mp hb)
  · exact (hostWrite_of_ne a v _ ha).trans (congrArg _ (writeRegister_withHost a v s h p r))

/-- Any access but reset beside a running operation: the operands as the host's writes make them, the rest of the core as it was. -/
theorem hostAccess_withHost {s : State} (hb : busy s = true) {a : HostAccess} (ha : a ≠ .reset) (ms : List Move) (h : State)
    (p : List HostAccess) (r : List (Byte × Byte)) :
    ∃ h' p' r', hostAccess a (withHost s h p r) = .next (withHost s h' p' r') ∧
      hostWritesOnly (.host a :: ms) h = hostWritesOnly ms h' := by
  cases a with
  | write a v => exact ⟨_, p, r, hostAccess_write_withHost hb a v h p r, rfl⟩
  | read a => exact ⟨h, p, _, rfl, rfl⟩
  | reset => exact absurd rfl ha
  | wait =>
    have hwait := hostWait_busy (withHost s h p r) hb
    exact ⟨h, _, _, congrArg _ hwait, rfl⟩

/-! ### A whole schedule -/

theorem makeMove_core_withHost {s t : State} (hb : busy s = true) (hs : coreStep s = .next t) (h : State)
    (p : List HostAccess) (r : List (Byte × Byte)) :
    makeMove .core (withHost s h p r) = .next (withHost t h p r) :=
  (makeMove_core_of_busy (s := withHost s h p r) hb).trans (coreStep_withHost h p r hs)

theorem makeMoves_core_of_idle {s : State} (hb : busy s = false) (n : Nat) : makeMoves (coreSteps n) s = .next s := by
  have hmove : makeMove .core s = .next s := if_neg (by simp [hb])
  induction n with
  | zero => rfl
  | succ n ih => exact (makeMoves_cons_next _ _ s s hmove).trans ih

/-- A first core step and the others after it. -/
theorem makeMoves_coreSteps_succ_inv {n : Nat} {s t : State} (h : makeMoves (coreSteps (n + 1)) s = .next t) :
    ∃ u, makeMove .core s = .next u ∧ makeMoves (coreSteps n) u = .next t := by
  rw [coreSteps, List.replicate_succ, makeMoves] at h
  cases hm : makeMove .core s with
  | next u =>
    rw [hm] at h
    exact ⟨u, rfl, h⟩
  | fault | refused =>
    rw [hm] at h
    cases h

/-- A core that is busy after core steps was busy before them. -/
theorem busy_of_makeMoves_coreSteps {n : Nat} {s t : State} (h : makeMoves (coreSteps n) s = .next t) (hb : busy t = true) :
    busy s = true := by
  cases hs : busy s with
  | true => rfl
  | false =>
    cases (makeMoves_core_of_idle hs n).symm.trans h
    exact hs.symm.trans hb

/-- As long as the operation runs, a schedule with no reset does what its core steps alone do, but for the host's own
registers. -/
theorem makeMoves_withHost {ms : List Move} (hms : NoReset ms) {s t : State}
    (hrun : makeMoves (coreSteps (coreMoves ms)) s = .next t) (hb : busy t = true) (h : State) (p : List HostAccess)
    (r : List (Byte × Byte)) :
    ∃ p' r', makeMoves ms (withHost s h p r) = .next (withHost t (hostWritesOnly ms h) p' r') := by
  have hbs := busy_of_makeMoves_coreSteps hrun hb
  induction ms generalizing s h p r with
  | nil =>
    cases hrun
    exact ⟨p, r, rfl⟩
  | cons m ms ih =>
    obtain ⟨hm, hrest⟩ : Move.host .reset ≠ m ∧ NoReset ms := List.ne_and_not_mem_of_not_mem_cons hms
    cases m with
    | core =>
      obtain ⟨u, hu, hrun⟩ := makeMoves_coreSteps_succ_inv hrun
      rw [makeMove_core_of_busy hbs] at hu
      rw [makeMoves_cons_next _ _ _ _ (makeMove_core_withHost hbs hu h p r)]
      exact ih hrest hrun h p r (busy_of_makeMoves_coreSteps hrun hb)
    | host a =>
      have ha : a ≠ .reset := by rintro rfl; exact hm rfl
      obtain ⟨h', p', r', hmove, hwrites⟩ := hostAccess_withHost hbs ha ms h p r
      rw [makeMoves_cons_next (.host a) _ _ _ hmove, hwrites]
      exact ih hrest hrun h' p' r' hbs

/-! ### The number of core steps (R168) -/

/-- The first `n` core steps of an operation, none of them its last: busy at `UPC = n`. -/
theorem makeMoves_coreSteps_below_last {s : State} (hop : s.opr ≠ .idle) (hupc : s.upc = 0) {n : Nat}
    (hn : n ≤ lastUpc s.opr) :
    ∃ t, makeMoves (coreSteps n) s = .next t ∧ t.opr = s.opr ∧ t.upc.toNat = n := by
  induction n with
  | zero => exact ⟨s, rfl, rfl, by rw [hupc]; rfl⟩
  | succ n ih =>
    obtain ⟨t, hrun, hopr, ht⟩ := ih (by omega)
    have hb : busy t = true := (busy_eq_true t).mpr (hopr ▸ hop)
    have hl : t.upc.toNat < lastUpc t.opr := by
      rw [hopr]
      omega
    have hcount : (t.upc + 1).toNat = n + 1 := (toNat_add_one_of_lt_lastUpc hl).trans (congrArg (· + 1) ht)
    obtain ⟨_, hs⟩ | ⟨-, -, f, hs⟩ | ⟨h, -⟩ | ⟨h, -⟩ := coreStep_cases hb hl.le
    · exact ⟨_, makeMoves_coreSteps_succ hrun ((makeMove_core_of_busy hb).trans hs), hopr, hcount⟩
    · exact ⟨_, makeMoves_coreSteps_succ hrun ((makeMove_core_of_busy hb).trans hs), hopr, hcount⟩
    · exact absurd h hl.ne
    · exact absurd h hl.ne

/-- The core step at the last address of an operation ends it. -/
theorem coreStep_at_last {s : State} (hb : busy s = true) (hl : s.upc.toNat = lastUpc s.opr) :
    ∃ t, coreStep s = .next t ∧ t.opr = .idle ∧ t.upc = 0 ∧ t.done = true := by
  obtain ⟨hn, -⟩ | ⟨-, h, -⟩ | ⟨-, -, hs⟩ | ⟨-, -, hs⟩ := coreStep_cases hb hl.le
  · exact absurd hl (lt_lastUpc_of_lt ((busy_eq_true s).mp hb) hn).ne
  · exact absurd hl h.ne
  · exact ⟨_, hs, rfl, rfl, rfl⟩
  · exact ⟨_, hs, rfl, rfl, rfl⟩

/-- An operation's core steps up to its last address, and the step that ends it. -/
theorem exists_last_coreStep {s : State} (hop : s.opr ≠ .idle) (hupc : s.upc = 0) :
    ∃ t u, makeMoves (coreSteps (lastUpc s.opr)) s = .next t ∧ busy t = true ∧ coreStep t = .next u ∧
      u.opr = .idle ∧ u.upc = 0 ∧ u.done = true := by
  obtain ⟨t, hrun, hopr, ht⟩ := makeMoves_coreSteps_below_last hop hupc le_rfl
  have hb : busy t = true := (busy_eq_true t).mpr (hopr ▸ hop)
  obtain ⟨u, hu⟩ := coreStep_at_last hb (by rw [ht, hopr])
  exact ⟨t, u, hrun, hb, hu⟩

/-- The last core step of an operation after a schedule that holds all the others. -/
theorem makeMoves_last_withHost {s t u : State} {ms : List Move} (hms : NoReset ms)
    (hrun : makeMoves (coreSteps (coreMoves ms)) s = .next t) (hb : busy t = true) (hu : coreStep t = .next u) :
    ∃ p r, makeMoves (ms ++ [.core]) s = .next (withHost u (hostWritesOnly ms s) p r) := by
  obtain ⟨p, r, hmoves⟩ := makeMoves_withHost hms hrun hb s s.pending s.reads
  exact ⟨p, r, (makeMoves_append_next _ _ _ _ hmoves).trans
    (makeMoves_cons_next _ _ _ _ (makeMove_core_withHost hb hu _ p r))⟩

/-- An operation run to its end among host accesses ends as by its core steps alone, but for the host's own registers. -/
theorem makeMoves_to_end {s u : State} {ms : List Move} (hop : s.opr ≠ .idle) (hupc : s.upc = 0) {n : Nat}
    (hlast : lastUpc s.opr = n) (hms : NoReset ms) (hn : coreMoves ms = n)
    (hu : makeMoves (coreSteps (n + 1)) s = .next u) :
    ∃ p r, makeMoves (ms ++ [.core]) s = .next (withHost u (hostWritesOnly ms s) p r) := by
  obtain ⟨t, v, hrun, hb, hv, -⟩ := exists_last_coreStep hop hupc
  rw [hlast] at hrun
  cases (makeMoves_coreSteps_succ hrun ((makeMove_core_of_busy hb).trans hv)).symm.trans hu
  rw [← hn] at hrun
  exact makeMoves_last_withHost hms hrun hb hv

/-- Settles O51: core steps alone count `UPC` up to the last address and end there, and host accesses leave that as it is. -/
theorem operationsEndInExactlyTheirSteps : Obligations.OperationsEndInExactlyTheirSteps := by
  intro s ms hop hupc hms
  refine ⟨fun hle => ?_, fun hn => ?_⟩
  · obtain ⟨t, hrun, hopr, ht⟩ := makeMoves_coreSteps_below_last hop hupc hle
    have hb : busy t = true := (busy_eq_true t).mpr (hopr ▸ hop)
    obtain ⟨p, r, hmoves⟩ := makeMoves_withHost hms hrun hb s s.pending s.reads
    exact ⟨_, hmoves, hopr, ht⟩
  · obtain ⟨t, u, hrun, hb, hu, hend⟩ := exists_last_coreStep hop hupc
    rw [← hn] at hrun
    obtain ⟨p, r, hmoves⟩ := makeMoves_last_withHost hms hrun hb hu
    exact ⟨_, hmoves, hend⟩

end Sys2Proof.Machine
end

section
/-! PROOF. What a command computes (R165 to R167, R169): the run of each operation by its core steps, and the run among host
accesses. -/

namespace Sys2Proof.Machine

/-! ### The expansion and `EXPAND_KEY` -/

/-- The expansion of a loaded key is done after forty core steps of any operation (R124). -/
theorem makeMoves_expand {s : State} (hb : busy s = true) (hupc : s.upc = 0) {k : Block} {xk : ExpandedKey}
    (hxk : s.xk = loadKey k xk) : makeMoves (coreSteps 40) s = .next (atMicroStep s 40 (expand k) s.st) := by
  rw [fortyStepsExpandTheKey s hb hupc, hxk, roundKey_zero_loadKey]
  rfl

/-- The core step at `FINX`: `XK` readable, the operation ended. -/
theorem makeMove_core_finx {s : State} {xk : ExpandedKey} {st : Block} (hb : busy s = true) {n : Nat}
    (hi : uop s.opr (BitVec.ofNat 7 n) = some .finx) :
    makeMove .core (atMicroStep s n xk st) = .next (endOperation { s with xk, st, xkv := true }) := by
  have hfetch : fetch (atMicroStep s n xk st) = some .finx := (fetch_eq_uop _).trans hi
  rw [makeMove_core_of_busy (by exact hb), coreStep_of_fetch _ _ hfetch]
  rfl

/-- The 41 core steps of an accepted `EXPAND_KEY`: the expansion of the key is in `XK`, readable (R167). -/
theorem makeMoves_expandKey {s : State} (hop : s.opr = .expandKey) (hupc : s.upc = 0) {k : Block} {xk : ExpandedKey}
    (hxk : s.xk = loadKey k xk) :
    makeMoves (coreSteps 41) s = .next (endOperation { s with xk := expand k, xkv := true }) := by
  have hb : busy s = true := by simp [busy, hop]
  have hfinx : uop s.opr (BitVec.ofNat 7 40) = some .finx := by rw [hop]; decide
  exact makeMoves_coreSteps_succ (makeMoves_expand hb hupc hxk) (makeMove_core_finx hb hfinx)

/-! ### The rounds of the decryption -/

/-- The four micro-operations of the round with round key `9 - n` (R159, R162). -/
theorem uop_decryptRound : ∀ n : Fin 9,
    uop .decryptBlock (BitVec.ofNat 7 (41 + 4 * n.val)) = some .isr ∧
    uop .decryptBlock (BitVec.ofNat 7 (41 + 4 * n.val + 1)) = some .isb ∧
    uop .decryptBlock (BitVec.ofNat 7 (41 + 4 * n.val + 2)) = some (.ark (BitVec.ofNat 6 (9 - n.val))) ∧
    uop .decryptBlock (BitVec.ofNat 7 (41 + 4 * n.val + 3)) = some .imc := by
  decide

/-- The micro-operations before the rounds with InvMixColumns and after them. -/
theorem uop_decryptEnds :
    uop .decryptBlock (BitVec.ofNat 7 40) = some (.ark (BitVec.ofNat 6 10)) ∧
    uop .decryptBlock (BitVec.ofNat 7 77) = some .isr ∧ uop .decryptBlock (BitVec.ofNat 7 78) = some .isb ∧
    uop .decryptBlock (BitVec.ofNat 7 79) = some (.ark (BitVec.ofNat 6 0)) ∧
    uop .decryptBlock (BitVec.ofNat 7 80) = some .fin := by
  decide

/-- The initial whitening and `n` rounds, from the end of the expansion on. -/
theorem makeMoves_decryptRounds {s s₀ : State} {xk : ExpandedKey} {st : Block} (hop : s.opr = .decryptBlock)
    (h : makeMoves (coreSteps 40) s₀ = .next (atMicroStep s 40 xk st)) {n : Nat} (hn : n ≤ 9) :
    makeMoves (coreSteps (41 + 4 * n)) s₀ = .next (atMicroStep s (41 + 4 * n) xk (decryptRounds xk st n hn)) := by
  have hb : busy s = true := by simp [busy, hop]
  induction n with
  | zero =>
    obtain ⟨hark, -⟩ := uop_decryptEnds
    rw [← hop] at hark
    exact (makeMoves_coreSteps_succ h (makeMove_core_transform hb hark (exec_ark_atMicroStep 40 (by omega))) :)
  | succ n ih =>
    obtain ⟨hisr, hisb, hark, himc⟩ := uop_decryptRound ⟨n, hn⟩
    rw [← hop] at hisr hisb hark himc
    have hkey : 9 - n < 11 := by omega
    have h1 := makeMoves_coreSteps_succ (ih (by omega)) (makeMove_core_transform hb hisr rfl)
    have h2 := makeMoves_coreSteps_succ h1 (makeMove_core_transform hb hisb rfl)
    have h3 := makeMoves_coreSteps_succ h2 (makeMove_core_transform hb hark (exec_ark_atMicroStep _ hkey))
    exact (makeMoves_coreSteps_succ h3 (makeMove_core_transform hb himc rfl) :)

/-! ### The two block operations -/

/-- The end of a block operation: `result` latched into `OUT`, `S` and `XK` released (R163). -/
def releaseBlockOperation (result : Block) (s : State) : State :=
  endOperation { s with out := result, outv := true, st := Vector.replicate 16 0, xk := Vector.replicate 176 0 }

/-- The 81 core steps of an accepted `DECRYPT_BLOCK`: the block decrypted under the key is in `OUT`, readable (R166). -/
theorem makeMoves_decryptBlock {s : State} (hop : s.opr = .decryptBlock) (hupc : s.upc = 0) {k : Block}
    {xk : ExpandedKey} (hxk : s.xk = loadKey k xk) :
    makeMoves (coreSteps 81) s = .next (releaseBlockOperation (decrypt s.st k) s) := by
  have hb : busy s = true := by simp [busy, hop]
  obtain ⟨-, hisr, hisb, hark, hfin⟩ := uop_decryptEnds
  rw [← hop] at hisr hisb hark hfin
  have hrounds := makeMoves_decryptRounds hop (makeMoves_expand hb hupc hxk) le_rfl
  have h1 := makeMoves_coreSteps_succ hrounds (makeMove_core_transform hb hisr rfl)
  have h2 := makeMoves_coreSteps_succ h1 (makeMove_core_transform hb hisb rfl)
  have h3 := makeMoves_coreSteps_succ h2 (makeMove_core_transform hb hark (exec_ark_atMicroStep 79 (by omega)))
  refine makeMoves_coreSteps_succ h3 ?_
  exact makeMove_core_fin hb hfin

/-- Each command of a block operation with its operation and the function of block and key that it computes. -/
inductive Computes : Instr → Operation → (Block → Block → Block) → Prop
  | encrypt : Computes .encryptBlock .encryptBlock encrypt
  | decrypt : Computes .decryptBlock .decryptBlock decrypt

section
variable {i : Instr} {op : Operation} {f : Block → Block → Block}

theorem Computes.blockCommand (hc : Computes i op f) : BlockCommand i op := by
  cases hc with
  | encrypt => exact .encrypt
  | decrypt => exact .decrypt

/-- Both operations run alike: `f` of `S` and the loaded key is in `OUT` after 81 core steps. -/
theorem Computes.makeMoves_operation (hc : Computes i op f) {s : State} (hop : s.opr = op) (hupc : s.upc = 0)
    {k : Block} {xk : ExpandedKey} (hxk : s.xk = loadKey k xk) :
    makeMoves (coreSteps 81) s = .next (releaseBlockOperation (f s.st k) s) := by
  cases hc with
  | encrypt => exact makeMoves_encryptBlock hop hupc hxk
  | decrypt => exact makeMoves_decryptBlock hop hupc hxk

/-- From an accepted state the 81 core steps alone compute `f` of the block and the key at acceptance. -/
theorem Computes.makeMoves_accepted (hc : Computes i op f) (s : State) :
    makeMoves (coreSteps 81) (startBlockOperation op s) =
      .next (releaseBlockOperation (f s.block s.key) (startBlockOperation op s)) := by
  rw [hc.makeMoves_operation (startBlockOperation_opr op s) (startBlockOperation_upc op s) (startBlockOperation_xk op s),
    startBlockOperation_st]

/-- And so they do among host accesses, whose writes alone the operand registers show at the end. -/
theorem Computes.makeMoves_accepted_withHost (hc : Computes i op f) (s : State) {ms : List Move} (hms : NoReset ms)
    (hn : coreMoves ms = 80) :
    ∃ p r, makeMoves (ms ++ [.core]) (startBlockOperation op s) =
      .next (withHost (releaseBlockOperation (f s.block s.key) (startBlockOperation op s))
        (hostWritesOnly ms (startBlockOperation op s)) p r) := by
  have hop : (startBlockOperation op s).opr ≠ .idle := by
    rw [startBlockOperation_opr]
    exact hc.blockCommand.opr_ne_idle
  have hlast : lastUpc (startBlockOperation op s).opr = 80 := by
    rw [startBlockOperation_opr]
    cases hc <;> rfl
  exact makeMoves_to_end hop (startBlockOperation_upc op s) hlast hms hn (hc.makeMoves_accepted s)

end

/-- Settles O52: the run by core steps alone computes `encrypt`, and host accesses leave that as it is. -/
theorem encryptBlockComputesEncrypt : Obligations.EncryptBlockComputesEncrypt := by
  intro s u ms hop hk hl he hms hn
  cases (exec_blockCommand_accepted .encrypt hop hk hl).symm.trans he
  obtain ⟨p, r, hmoves⟩ := Computes.encrypt.makeMoves_accepted_withHost s hms hn
  refine ⟨_, hmoves, ?_⟩
  simp [withHost, releaseBlockOperation, errNone]

/-- Settles O53: the run by core steps alone computes `decrypt`, and host accesses leave that as it is. -/
theorem decryptBlockComputesDecrypt : Obligations.DecryptBlockComputesDecrypt := by
  intro s u ms hop hk hl he hms hn
  cases (exec_blockCommand_accepted .decrypt hop hk hl).symm.trans he
  obtain ⟨p, r, hmoves⟩ := Computes.decrypt.makeMoves_accepted_withHost s hms hn
  refine ⟨_, hmoves, ?_⟩
  simp [withHost, releaseBlockOperation, errNone]

/-- Settles O54: the run by core steps alone is the expansion and `FINX`, and host accesses leave that as it is. -/
theorem expandKeyComputesExpand : Obligations.ExpandKeyComputesExpand := by
  intro s u ms hop he hms hn
  cases (exec_expandKey_of_idle hop).symm.trans he
  have hstart := startOperation_opr .expandKey s
  have hrun := makeMoves_expandKey hstart (startOperation_upc .expandKey s) (startOperation_xk .expandKey s)
  have hlast : lastUpc (startOperation .expandKey s).opr = 40 := by rw [hstart]; rfl
  obtain ⟨p, r, hmoves⟩ := makeMoves_to_end (by rw [hstart]; decide) (startOperation_upc .expandKey s) hlast hms hn hrun
  refine ⟨_, hmoves, ?_⟩
  simp [withHost, errNone]

/-- Settles O55: the result is the same function of the block and the key, whatever else the two states held. -/
theorem commandsAreIndependent : Obligations.CommandsAreIndependent := by
  intro s s' u u' i hi hop hop' hk hl hk' hl' hkey hblock he he'
  obtain ⟨op, f, hc⟩ : ∃ op f, Computes i op f := by
    obtain rfl | rfl := hi
    · exact ⟨_, _, .encrypt⟩
    · exact ⟨_, _, .decrypt⟩
  cases (exec_blockCommand_accepted hc.blockCommand hop hk hl).symm.trans he
  cases (exec_blockCommand_accepted hc.blockCommand hop' hk' hl').symm.trans he'
  refine ⟨_, _, hc.makeMoves_accepted s, hc.makeMoves_accepted s', ?_⟩
  simp only [releaseBlockOperation, endOperation_out, hkey, hblock]

end Sys2Proof.Machine
end

section
/-! PROOF. The exceptions (R181, R186): a rejection changes the report alone, and the report stays until an acceptance. -/

namespace Sys2Proof.Machine

/-- The byte of a block operation with a wrong length, written to an idle core: the reject transition. -/
theorem hostAccess_blockCommand_rejected {v : Byte} {i : Instr} {op : Operation} (hd : decodeCommand v = .ok i)
    (hc : BlockCommand i op) {s : State} (hop : s.opr = .idle) (hlen : s.keylen ≠ 16 ∨ s.blklen ≠ 16) :
    hostAccess (.write 0x00 v) s = .next (raiseInvalidInputLength s) := by
  rw [hostAccess_command hd, exec_blockCommand_of_idle hc hop, if_pos hlen]

/-- Settles O11: an idle core rejects a block operation on its lengths alone, and accepts `EXPAND_KEY` whatever they are. -/
theorem wrongLengthRejected : Obligations.WrongLengthRejected := by
  refine ⟨fun v s hv hop hlen => ?_, fun s hop => ?_⟩
  · obtain rfl | rfl := hv
    · exact hostAccess_blockCommand_rejected (v := 0x02) rfl .encrypt hop hlen
    · exact hostAccess_blockCommand_rejected (v := 0x03) rfl .decrypt hop hlen
  · exact ⟨_, (hostAccess_command (v := 0x01) rfl s).trans (exec_expandKey_of_idle hop), rfl, rfl⟩

/-! ### The report over one move (R186) -/

/-- Any access but reset is a command, or it changes neither the report nor `OPR`. -/
theorem hostAccess_cases {a : HostAccess} (ha : a ≠ .reset) (s : State) :
    (∃ i : Instr, i.isCommand = true ∧ hostAccess a s = exec i s) ∨
    (∃ t, hostAccess a s = .next t ∧ t.opr = s.opr ∧ t.err = s.err ∧ t.errcode = s.errcode) := by
  cases a with
  | write a v =>
    by_cases hcmd : a = 0x00
    · subst hcmd
      cases hd : decodeCommand v with
      | ok i => exact .inl ⟨i, isCommand_of_decodeCommand hd, hostAccess_command hd s⟩
      | error e =>
        have hdrop : hostAccess (.write 0x00 v) s = .next s := by
          rw [hostAccess, hostWrite_cmd, command, hd]
        exact .inr ⟨s, hdrop, rfl, rfl, rfl⟩
    · refine .inr ⟨_, hostWrite_of_ne a v s hcmd, ?_⟩
      rw [writeRegister_frame]
      exact ⟨rfl, rfl, rfl⟩
  | read a => exact .inr ⟨_, rfl, rfl, rfl, rfl⟩
  | reset => exact absurd rfl ha
  | wait =>
    refine .inr ⟨_, rfl, ?_⟩
    cases hb : busy s with
    | false => exact hostWait_idle s hb ▸ ⟨rfl, rfl, rfl⟩
    | true => exact hostWait_busy s hb ▸ ⟨rfl, rfl, rfl⟩

/-- An idle core shows the report of a rejection (R181). -/
def RejectionReported (s : State) : Prop := s.err = true ∧ s.errcode = 0x01 ∧ s.opr = .idle

/-- A running core shows no error, as its acceptance cleared the report (R155 to R157). -/
def ReportCleared (s : State) : Prop := s.opr ≠ .idle ∧ s.err = false ∧ s.errcode = 0x00

/-- A command keeps the report, sets it once more, or is accepted and clears it. -/
theorem reported_or_cleared_of_command {i : Instr} (hcmd : i.isCommand = true) {s t : State} (h : RejectionReported s)
    (he : Effect s i t) : RejectionReported t ∨ ReportCleared t := by
  cases he with
  | nop => exact .inl h
  | dropped => exact .inl h
  | acceptedExpandKey => exact .inr ⟨by simp, rfl, rfl⟩
  | acceptedBlock hc => exact .inr ⟨hc.opr_ne_idle, rfl, rfl⟩
  | rejected _ hb => exact .inl ⟨rfl, rfl, (busy_eq_false s).mp hb⟩
  | transformed f ht => cases i <;> simp [Instr.isCommand, Instr.transformsState] at hcmd ht
  | expandedWord | finished | finishedExpansion => cases hcmd

/-- Settles O12: with the report set the core is idle, so only a command of the host reaches it. -/
theorem errorReportKeptUntilAcceptance : Obligations.ErrorReportKeptUntilAcceptance := by
  intro m s t hc herr hm he
  obtain ⟨-, -, -, hreport, -⟩ := hc
  obtain ⟨hop, -, hcode⟩ := hreport herr
  have h : RejectionReported s := ⟨herr, hcode, hop⟩
  cases m with
  | core =>
    have hidle : makeMove .core s = .next s := if_neg (by rw [(busy_eq_false s).mpr hop]; decide)
    cases hidle.symm.trans he
    exact .inl h
  | host a =>
    obtain ⟨i, hcmd, hs⟩ | ⟨u, hs, hopr, hkept, hcodeKept⟩ := hostAccess_cases (mt (congrArg Move.host) hm) s
    · exact reported_or_cleared_of_command hcmd h (effect_of_exec (hs.symm.trans he))
    · cases hs.symm.trans he
      exact .inl ⟨hkept.trans herr, hcodeKept.trans hcode, hopr.trans hop⟩

end Sys2Proof.Machine
end

section
/-! PROOF. Every state has a next state (R206), and so has a chip of several cores, each of which steps alone (R190). -/

namespace Sys2Proof

theorem Instr.wf_of_isCommand {i : Instr} (h : i.isCommand = true) : i.wf = true := by
  cases i with
  | nop | expandKey | encryptBlock | decryptBlock => rfl
  | kx | ark | sb | sr | mc | isb | isr | imc | fin | finx => cases h

namespace Machine

theorem exists_commandBlockOperation (op : Operation) (s : State) : ∃ t, commandBlockOperation op s = .next t := by
  obtain ⟨-, h⟩ | ⟨-, -, h⟩ | ⟨-, -, h⟩ := commandBlockOperation_cases op s <;> exact ⟨_, h⟩

/-- A legal instruction has a next state from every state. -/
theorem exists_exec_of_wf {i : Instr} (hw : i.wf = true) (s : State) : ∃ t, exec i s = .next t := by
  cases i with
  | nop => exact ⟨s, rfl⟩
  | expandKey =>
    cases hb : busy s with
    | false => exact ⟨_, exec_expandKey_of_idle ((busy_eq_false s).mp hb)⟩
    | true => exact ⟨s, exec_command_of_busy rfl hb⟩
  | encryptBlock => exact exists_commandBlockOperation .encryptBlock s
  | decryptBlock => exact exists_commandBlockOperation .decryptBlock s
  | kx arg =>
    have harg : 4 ≤ arg.toNat ∧ arg.toNat ≤ 43 := by simpa [Instr.wf] using hw
    exact ⟨_, exec_kx harg s⟩
  | ark | sb | sr | mc | isb | isr | imc =>
    obtain ⟨f, hf⟩ := exec_transform rfl hw s
    exact ⟨_, hf⟩
  | fin | finx => exact ⟨_, rfl⟩

theorem exists_coreStep {s : State} (hb : busy s = true) : ∃ t, coreStep s = .next t := by
  obtain ⟨i, -, -, hwf, -, hs⟩ := coreStepExecutesUop s hb
  exact hs ▸ exists_exec_of_wf hwf s

theorem exists_hostAccess (a : HostAccess) (s : State) : ∃ t, hostAccess a s = .next t := by
  by_cases ha : a = .reset
  · subst ha
    exact ⟨resetCore s, rfl⟩
  · obtain ⟨i, hcmd, hs⟩ | ⟨t, hs, -⟩ := hostAccess_cases ha s
    · exact hs ▸ exists_exec_of_wf (Instr.wf_of_isCommand hcmd) s
    · exact ⟨t, hs⟩

/-- Each of the three kinds of step has a next state (R206). -/
theorem exists_step (s : State) : ∃ t, step s = .next t := by
  obtain ⟨-, -, hs⟩ | ⟨hb, q, n, hs⟩ | ⟨a, rest, q, n, -, hs⟩ := step_cases s
  · exact ⟨s, hs⟩
  · exact hs ▸ exists_coreStep (s := { s with sched := q, turn := n }) hb
  · exact hs ▸ exists_hostAccess a _

/-- Settles O57: the core's own step, which always has a next state, is put in its place of the chip. -/
theorem instancesShareNothing : Obligations.InstancesShareNothing := by
  intro n k chip
  obtain ⟨t, ht⟩ := exists_step chip[k.val]
  have hstep : stepInstance k chip = .next (chip.set k t) := by
    simp only [stepInstance, Fin.getElem_fin, ht]
  refine ⟨chip.set k t, hstep, ?_, fun j hj => ?_⟩
  · rw [Vector.getElem_set_self, ht]
  · exact Vector.getElem_set_ne _ _ (Fin.val_ne_of_ne hj.symm)

end Machine
end Sys2Proof
end

section
/-! PROOF. Reset from any state, and no hang (R200, R201, R206). -/

namespace Sys2Proof.Machine

/-- The host's reset is the reset transition, busy or idle (R200). -/
theorem hostAccess_reset (s : State) : hostAccess .reset s = .next (resetCore s) := rfl

/-- Settles O31: the access is `resetCore`, which keeps of the old state the host's own fields alone. -/
theorem resetAbandonsEverything : Obligations.ResetAbandonsEverything := hostAccess_reset

/-- Settles O37: each kind of step has a next state, and with nothing pending an idle core makes no move. -/
theorem everyStateHasANextState : Obligations.EveryStateHasANextState :=
  ⟨exists_step, fun s hop hp => step_nothing s hp ((busy_eq_false s).mpr hop)⟩

end Sys2Proof.Machine
end
